-- ==== Sys2Proof/Word.lean ====
section
/-! DEFINITION. The word type: every hardware register and the bus data path are REGW = 32 bits wide
(00_scope.md R6, 20_memory.md R42). Bit 0 is the least significant bit (00_scope.md R8). -/

namespace Sys2Proof

/-- A value of one hardware register or of the bus data path (REGW = 32). -/
abbrev Word := BitVec 32

end Sys2Proof
end

