-- ==== Sys2Proof/Config.lean ====
section
/-! DEFINITION. The implementation parameters of 00_scope.md R6. The ones the spec fixes are constants here; the ones
it leaves OPEN (92_eei_decisions.md D3, D4, D6, D12, D13, D21) are the fields of `Params`, which State carries unchanged
(log 1), with the spec's defaults in `Params.default`. The one free value is an opaque constant. -/

namespace Sys2Proof

namespace Config

/-- OSC_HZ, the reference oscillator in Hz (R6, D2). -/
def oscHz : Nat := 24000000

/-- UV_MIN: below this many microvolts the core code is 0 (R6, R121). -/
def uvMin : Nat := 725000

/-- UV_MAX: above this many microvolts the core code is 31 (R6, R121). -/
def uvMax : Nat := 1450000

/-- UV_BASE, the offset of the linear quantiser (R6, R121). -/
def uvBase : Nat := 700000

/-- UV_STEP, the step of the linear quantiser (R6, R121). -/
def uvStep : Nat := 25000

/-- SOC_MIN_CODE, the floor of the secondary-rail code (R6, R124). -/
def socMinCode : BitVec 5 := 18#5

/-- VCORE_MASK and VSOC_MASK, from VCODE_W = 5 (R6). -/
def vcodeMask : BitVec 7 := 0x1F#7

/-- DESIGN CHOICE (log 12; safe): what a stand-alone WRITE of PLL or CDIV writes. 40_register_primitives.md R87 gives
the data only through "the invoking rule", and no rule invokes WRITE on those two registers. The argument is the
counter of free values in State. -/
opaque freeWriteData : Nat → Word

end Config

/-- One row of the operating-point table: a key in Hz and its OperatingPoint (41_operating_point_table.md R102). -/
structure Row where
  key  : Word
  div  : BitVec 7
  podf : BitVec 3
  uv   : Word
  deriving DecidableEq, Repr

/-- The OPEN parameters of 00_scope.md R6. Masks are unshifted and at most 7 bits wide (30_encoding.md R64). -/
structure Params where
  /-- `A_PLL`, `A_CDIV`, `A_VTARG`. -/
  aPll   : Word
  aCdiv  : Word
  aVtarg : Word
  /-- PLL divider field. -/
  divOff  : BitVec 5
  divMask : BitVec 7
  /-- PLL bypass clock source field, and the code of the reference oscillator in it. -/
  srcOff  : BitVec 5
  srcMask : BitVec 7
  srcOsc  : BitVec 7
  /-- PLL bypass bit and PLL lock status bit. -/
  bypBit  : BitVec 5
  lockBit : BitVec 5
  /-- Core post-divider field. -/
  podfOff  : BitVec 5
  podfMask : BitVec 7
  /-- Core-rail and secondary-rail target fields (their mask is `Config.vcodeMask`). -/
  vcoreOff : BitVec 5
  vsocOff  : BitVec 5
  /-- `FAM0`, the one implemented family (D4). -/
  fam0  : BitVec 8
  /-- `TABLE(FAM0)` (D3). -/
  table : List Row
  /-- `SETTLE_TICKS` (D12). -/
  settleTicks : Word
  /-- `LOCK_DEADLINE` (D13); `none` is the reference behaviour. -/
  lockDeadline : Option Word
  /-- `PLL_MAY_DROP_LOCK` (D21). -/
  pllMayDropLock : Bool
  deriving DecidableEq, Repr

/-- The default table (R102): rows 198 and 792 MHz are DOC0's, the others general knowledge (D3). -/
def defaultTable : List Row :=
  [ ⟨198000000#32, 66#7, 3#3, 950000#32⟩,
    ⟨396000000#32, 66#7, 1#3, 1025000#32⟩,
    ⟨528000000#32, 88#7, 1#3, 1175000#32⟩,
    ⟨792000000#32, 66#7, 0#3, 1225000#32⟩,
    ⟨900000000#32, 75#7, 0#3, 1275000#32⟩ ]

/-- The defaults of 00_scope.md R6 (log 2). -/
def Params.default : Params where
  aPll := 0x020C8000#32
  aCdiv := 0x020C4010#32
  aVtarg := 0x020C8140#32
  divOff := 0#5
  divMask := 0x7F#7
  srcOff := 14#5
  srcMask := 0x3#7
  srcOsc := 0#7
  bypBit := 16#5
  lockBit := 31#5
  podfOff := 0#5
  podfMask := 0x7#7
  vcoreOff := 0#5
  vsocOff := 18#5
  fam0 := 0x65#8
  table := defaultTable
  settleTicks := 10000#32
  lockDeadline := none
  pllMayDropLock := false

end Sys2Proof
end

