-- ==== Sys2Proof/Syntax.lean ====
section
/-! DEFINITION. The thirteen instructions of spec/opcode_table.json, one constructor per row: four host commands
(30_encoding.md R60, R61) and nine register-access micro-operations (R64, R65); and the two word formats in which they
reach the block. -/

namespace Sys2Proof

/-- The three registers on the bus (20_memory.md R41: a three-valued identifier may stand for the address). -/
inductive Reg where
  | pll | cdiv | vtarg
  deriving DecidableEq, Repr

/-- One constructor per row of the opcode table, operands as 30_encoding.md R62 and R65 give them. -/
inductive Instr where
  /-- SETFREQ: the target frequency in Hz (R61). -/
  | setfreq (hz : Word)
  /-- RDFREQ: the operand has no meaning, but R141 latches it in ARG like any other. -/
  | rdfreq (ignored : Word)
  /-- SETOP: the target voltage in microvolts. -/
  | setop (uv : Word)
  /-- LOOKUP: a frequency in Hz. -/
  | lookup (hz : Word)
  | get (reg : Reg) (off : BitVec 5) (mask : BitVec 7)
  | set (reg : Reg) (bit : BitVec 5)
  | clear (reg : Reg) (bit : BitVec 5)
  | setfield (reg : Reg) (off : BitVec 5) (mask : BitVec 7) (val : BitVec 7)
  | clearfield (reg : Reg) (off : BitVec 5) (mask : BitVec 7)
  | waituntil (reg : Reg) (off : BitVec 5) (mask : BitVec 7) (expected : BitVec 7)
  | read (reg : Reg)
  | write (reg : Reg)
  | delay
  deriving DecidableEq, Repr

/-- A word as it is presented to the block: a 36-bit command word `CW` (R60) or a 25-bit micro-operation descriptor
`MD` (R64). Presenting a descriptor at the port is this model's way to run a micro-operation by itself (log 10). -/
inductive FetchWord where
  | cmd (cw : BitVec 36)
  | mop (md : BitVec 25)
  deriving DecidableEq, Repr

end Sys2Proof
end

