-- ==== Sys2Proof/WellFormed.lean ====
section
/-! DEFINITION. Well-formed instructions. The one condition the spec puts on an operand is 40_register_primitives.md
R90 (00_scope.md R7 (a)): a field lies inside the register, "so `off + width(mask) <= 32` always holds and no shift
leaves the register". Every operand of a command is accepted (30_encoding.md R62). -/

namespace Sys2Proof

/-- Width of an unshifted mask: one more than the index of its highest set bit, 0 for the empty mask. -/
def maskWidth (mask : BitVec 7) : Nat :=
  if mask.toNat = 0 then 0 else mask.toNat.log2 + 1

/-- R90: the field `(off, mask)` lies inside a 32-bit register. -/
def fieldFits (off : BitVec 5) (mask : BitVec 7) : Bool :=
  decide (off.toNat + maskWidth mask ≤ 32)

/-- The instruction's operands meet R90. -/
def Instr.wf : Instr → Bool
  | .setfreq _ => true
  | .rdfreq _ => true
  | .setop _ => true
  | .lookup _ => true
  | .get _ off mask => fieldFits off mask
  | .set _ _ => true
  | .clear _ _ => true
  | .setfield _ off mask _ => fieldFits off mask
  | .clearfield _ off mask => fieldFits off mask
  | .waituntil _ off mask _ => fieldFits off mask
  | .read _ => true
  | .write _ => true
  | .delay => true

end Sys2Proof
end

