-- ==== Sys2Proof/Decode.lean ====
section
/-! DEFINITION. The decoder of command words and micro-operation descriptors, total, rejecting by name, and the encoder
written from the same tables (30_encoding.md R60 to R65, R73). -/

namespace Sys2Proof

/-! ### Opcodes of a command word: `CW[35:32]` (R61) -/

def opSetfreq : BitVec 4 := 0x1#4
def opRdfreq : BitVec 4 := 0x2#4
def opSetop : BitVec 4 := 0x3#4
def opLookup : BitVec 4 := 0x4#4

/-! ### Kinds of a micro-operation descriptor: `MD[24:21]` (R65) -/

def kGet : BitVec 4 := 0x0#4
def kSet : BitVec 4 := 0x1#4
def kClear : BitVec 4 := 0x2#4
def kSetfield : BitVec 4 := 0x3#4
def kClearfield : BitVec 4 := 0x4#4
def kWaituntil : BitVec 4 := 0x5#4
def kRead : BitVec 4 := 0x6#4
def kWrite : BitVec 4 := 0x7#4
def kDelay : BitVec 4 := 0x8#4

/-- Why a word is no instruction. -/
inductive DecodeError where
  /-- R63: `op` = 0x0 or 0x5 to 0xF; the command is still accepted and answered with IllegalCommand. -/
  | reservedOpcode (op : BitVec 4) (arg : Word)
  /-- R65: `kind` = 0x9 to 0xF. -/
  | reservedKind (kind : BitVec 4)
  /-- R64: `reg` = 3. -/
  | reservedReg
  deriving DecidableEq, Repr

/-- `CW[35:32]` (R60). -/
def cwOp (cw : BitVec 36) : BitVec 4 := cw.extractLsb' 32 4

/-- `CW[31:0]` (R60), taken as is (R62). -/
def cwArg (cw : BitVec 36) : Word := cw.extractLsb' 0 32

/-- R60, R61, R62, R63. -/
def decodeCmd (cw : BitVec 36) : Except DecodeError Instr :=
  if cwOp cw = opSetfreq then .ok (.setfreq (cwArg cw))
  else if cwOp cw = opRdfreq then .ok (.rdfreq (cwArg cw))
  else if cwOp cw = opSetop then .ok (.setop (cwArg cw))
  else if cwOp cw = opLookup then .ok (.lookup (cwArg cw))
  else .error (.reservedOpcode (cwOp cw) (cwArg cw))

/-! ### Fields of a descriptor (R64) -/

def mdKind (md : BitVec 25) : BitVec 4 := md.extractLsb' 21 4
def mdReg (md : BitVec 25) : BitVec 2 := md.extractLsb' 19 2
def mdOff (md : BitVec 25) : BitVec 5 := md.extractLsb' 14 5
def mdMask (md : BitVec 25) : BitVec 7 := md.extractLsb' 7 7
def mdVal (md : BitVec 25) : BitVec 7 := md.extractLsb' 0 7

/-- R64: 0 = PLL, 1 = CDIV, 2 = VTARG, 3 = reserved. -/
def regOfCode (c : BitVec 2) : Option Reg :=
  if c = 0#2 then some .pll
  else if c = 1#2 then some .cdiv
  else if c = 2#2 then some .vtarg
  else none

/-- R64. -/
def Reg.code : Reg → BitVec 2
  | .pll => 0#2
  | .cdiv => 1#2
  | .vtarg => 2#2

/-- The kinds that name a register (R65), its register given. Unused fields are ignored (R73). -/
def decodeKind (md : BitVec 25) (r : Reg) : Except DecodeError Instr :=
  if mdKind md = kGet then .ok (.get r (mdOff md) (mdMask md))
  else if mdKind md = kSet then .ok (.set r (mdOff md))
  else if mdKind md = kClear then .ok (.clear r (mdOff md))
  else if mdKind md = kSetfield then .ok (.setfield r (mdOff md) (mdMask md) (mdVal md))
  else if mdKind md = kClearfield then .ok (.clearfield r (mdOff md) (mdMask md))
  else if mdKind md = kWaituntil then .ok (.waituntil r (mdOff md) (mdMask md) (mdVal md))
  else if mdKind md = kRead then .ok (.read r)
  else if mdKind md = kWrite then .ok (.write r)
  else .error (.reservedKind (mdKind md))

/-- R64, R65: DELAY uses no field; a reserved kind is rejected before a reserved register. -/
def decodeMop (md : BitVec 25) : Except DecodeError Instr :=
  if mdKind md = kDelay then .ok .delay
  else if mdKind md > kDelay then .error (.reservedKind (mdKind md))
  else match regOfCode (mdReg md) with
    | none => .error .reservedReg
    | some r => decodeKind md r

/-- The decoder. -/
def decode : FetchWord → Except DecodeError Instr
  | .cmd cw => decodeCmd cw
  | .mop md => decodeMop md

/-- A command word from its opcode and operand (R60). -/
def cmdWord (op : BitVec 4) (arg : Word) : BitVec 36 := op ++ arg

/-- A descriptor from its five fields (R64). -/
def mopWord (kind : BitVec 4) (reg : BitVec 2) (off : BitVec 5) (mask val : BitVec 7) : BitVec 25 :=
  kind ++ reg ++ off ++ mask ++ val

/-- The encoder (R60, R61, R64, R65). Unused descriptor fields are written as 0 (R73); SET and CLEAR have `mask` = 1
(R65). -/
def encode : Instr → FetchWord
  | .setfreq hz => .cmd (cmdWord opSetfreq hz)
  | .rdfreq ignored => .cmd (cmdWord opRdfreq ignored)
  | .setop uv => .cmd (cmdWord opSetop uv)
  | .lookup hz => .cmd (cmdWord opLookup hz)
  | .get r off mask => .mop (mopWord kGet r.code off mask 0#7)
  | .set r bit => .mop (mopWord kSet r.code bit 1#7 0#7)
  | .clear r bit => .mop (mopWord kClear r.code bit 1#7 0#7)
  | .setfield r off mask val => .mop (mopWord kSetfield r.code off mask val)
  | .clearfield r off mask => .mop (mopWord kClearfield r.code off mask 0#7)
  | .waituntil r off mask expected => .mop (mopWord kWaituntil r.code off mask expected)
  | .read r => .mop (mopWord kRead r.code 0#5 0#7 0#7)
  | .write r => .mop (mopWord kWrite r.code 0#5 0#7 0#7)
  | .delay => .mop (mopWord kDelay 0#2 0#5 0#7 0#7)

/-- A word of the opcode table as the block receives it. Both formats are one word wide; a row of 25 bits fits 32 and
a row of 36 does not, so `nbits` tells them apart (log 28). -/
def tableFetchWord (nbits w : Nat) : FetchWord :=
  if nbits ≤ 32 then .mop (BitVec.ofNat 25 w) else .cmd (BitVec.ofNat 36 w)

/-- The instruction the decoder reads from a word numbered as spec/opcode_table.json numbers it; none where the decoder
refuses, and none for a number too wide for its format. -/
def decodeTableWord (nbits w : Nat) : Option Instr :=
  if w < (if nbits ≤ 32 then 2 ^ 25 else 2 ^ 36) then
    match decode (tableFetchWord nbits w) with
    | .ok i => some i
    | .error _ => none
  else none

end Sys2Proof
end

