-- ==== Sys2Proof/Machine/State.lean ====
section
/-! DEFINITION. The state of the block: the sequencer's state register and working latches (10_state.md R11, R12), the
three bus registers and the hidden state of the agents that own them (R16 to R20), the ports, the traces (R22) and the
parameters; and the two closed lists of reasons a step can stop. Plain data throughout. -/

namespace Sys2Proof.Machine

/-- The sequencer state register `ST` (10_state.md R11), codes in 30_encoding.md R69. -/
inductive SeqState where
  | sIdle | sEntry | sLookup | sRdDiv | sRdPodf
  | sVQuant | sVRdCur | sVRmwRd | sVRmwWr | sVSettle | sVDiag
  | sBypsrcRd | sBypsrcWr | sBypsetRd | sBypsetWr | sDivselRd | sDivselWr
  | sWaitLock | sUnbypRd | sUnbypWr | sPodfRd | sPodfWr | sPost | sRespond
  deriving DecidableEq, Repr

/-- `VPHASE` (R12): which call of the controller is running. -/
inductive VPhase where
  | none | pre | post | alone
  deriving DecidableEq, Repr

/-- The status codes of a response (30_encoding.md R67). -/
inductive Status where
  | ok | unsupportedFrequency | unsupportedFamily | illegalCommand | hardwareTimeout
  deriving DecidableEq, Repr

/-- A bus transaction as the bus trace records it (R22, 20_memory.md R44). -/
inductive BusEvent where
  | rd (addr data : Word)
  | wr (addr data : Word)
  deriving DecidableEq, Repr

/-- A response (30_encoding.md R66). -/
structure Response where
  status : Status
  data   : Word
  deriving DecidableEq, Repr

/-- A diagnostic event (30_encoding.md R74). -/
structure DiagEvent where
  oldCode : BitVec 5
  newCode : BitVec 5
  newSoc  : BitVec 5
  uv      : Word
  deriving DecidableEq, Repr

/-- Who moves next, and what an agent outside the sequencer does (10_state.md R10; log 6). -/
inductive Move where
  /-- The sequencer takes its step. -/
  | sequencer
  /-- A host presents a word at the port; it is held there until the sequencer takes it (R141). -/
  | hostPresent (w : FetchWord)
  /-- The host consumes the oldest response (R10). -/
  | hostConsume
  /-- The PLL's lock acquisition (45 R173). -/
  | pllLocks
  /-- The PLL's lock loss (45 R174), a move only with `PLL_MAY_DROP_LOCK`. -/
  | pllDropsLock
  /-- The regulator's settling (45 R179). -/
  | railsSettle
  /-- The reset input is asserted (70 R220, R223). -/
  | resetAsserted
  /-- A foreign bus master writes a register (45 R182; 93 U3). -/
  | foreignWrite (r : Reg) (w : Word)
  deriving DecidableEq, Repr

/-- Which half of a stand-alone micro-operation runs next (log 11). -/
inductive MopPhase where
  | first | second
  deriving DecidableEq, Repr

/-- The machine's state. -/
structure State where
  /-- `ST` (R11). -/
  st : SeqState
  /-- The working latches (R12), each under the spec's name. -/
  cmd : BitVec 4
  arg : Word
  opDiv : BitVec 7
  opPodf : BitVec 3
  opUv : Word
  rdDiv : BitVec 7
  rdPodf : BitVec 3
  curHz : Word
  inc : Bool
  vphase : VPhase
  vUv : Word
  vCore : BitVec 5
  vOld : BitVec 5
  vSoc : BitVec 5
  tmp : Word
  dly : Word
  polls : Word
  status : Status
  rdata : Word
  /-- `FAMILY`, the strap (R15). -/
  family : BitVec 8
  /-- The stored bits of `PLL` (45 R170) and the hidden `pll_lock` (R20). -/
  pll : Word
  pllLock : Bool
  /-- `CDIV` (R17). -/
  cdiv : Word
  /-- `VTARG` (R18) and the hidden `rail_settled` (R20). -/
  vtarg : Word
  railSettled : Bool
  /-- The three traces, in the order of the events (R22). -/
  bus : List BusEvent
  rsp : List Response
  diag : List DiagEvent
  /-- Responses emitted and not yet consumed by the host, oldest first (R10, R21). -/
  rspOut : List Response
  /-- The words held at the command port, oldest first (R21, R141). -/
  port : List FetchWord
  /-- The model's own fields: a stand-alone micro-operation in flight, its half, GET's result (log 11), the counter of
  free values drawn (log 13), and who moves next (log 6). -/
  md : Option (BitVec 25)
  mphase : MopPhase
  mopResult : BitVec 7
  freeCtr : Nat
  sched : List Move
  /-- The parameters of 00_scope.md R6; no step changes them (log 1). -/
  cfg : Params
  deriving DecidableEq, Repr

/-- Why the machine stops with a fault. Both are safe: the spec says neither situation occurs in a run. -/
inductive Fault where
  /-- Raised by `vReturn` (43 R129) when VPHASE = NONE, which "cannot occur here" (log 18). Safe. -/
  | returnWithoutCall
  /-- Raised by the S_LOOKUP rule (R143) when the family is not implemented: 41 R103 leaves `Lookup` undefined there,
  "the caller has already raised UnsupportedFamily" (log 18). Safe. -/
  | lookupOfUnknownFamily
  deriving DecidableEq, Repr

/-- Why the model gives a step no meaning. All are safe: the model stops where hardware might go on. -/
inductive Refusal where
  /-- Raised by `exec` for an instruction that has no meaning yet. Safe. -/
  | notModelled (mnemonic : String)
  /-- Raised by the fetch on a descriptor with a reserved kind or register: "refuse if a model is handed one"
  (93 U8; log 17). Safe. -/
  | reservedDescriptor
  /-- Raised by `Move.resetAsserted` while a command or micro-operation is in flight: "a model refuses runs that
  contain it" (70 R223; log 19). Safe. -/
  | resetInFlight
  /-- Raised by `Move.foreignWrite`: "a run with a foreign write has no meaning in the model" (93 U3; log 20). Safe. -/
  | foreignWriter
  deriving DecidableEq, Repr

/-- The machine right after reset (10_state.md R26, 70 R220, R222): `ST`, `CMD`, `VPHASE`, the traces and the response
port as the spec says; every other value is the model's choice (DESIGN CHOICE, log 2 to 6, 9, 11, 13). -/
def State.reset : State where
  st := .sIdle
  cmd := 0#4
  arg := 0#32
  opDiv := 0#7
  opPodf := 0#3
  opUv := 0#32
  rdDiv := 0#7
  rdPodf := 0#3
  curHz := 0#32
  inc := false
  vphase := .none
  vUv := 0#32
  vCore := 0#5
  vOld := 0#5
  vSoc := 0#5
  tmp := 0#32
  dly := 0#32
  polls := 0#32
  status := .ok
  rdata := 0#32
  family := 0x65#8
  pll := 0#32
  pllLock := false
  cdiv := 0#32
  vtarg := 0#32
  railSettled := false
  bus := []
  rsp := []
  diag := []
  rspOut := []
  port := []
  md := none
  mphase := .first
  mopResult := 0#7
  freeCtr := 0
  sched := []
  cfg := Params.default

end Sys2Proof.Machine
end

