-- ==== Sys2Proof/Machine/Flags.lean ====
section
/-! DEFINITION. The one stored flag and the three transient comparisons (10_state.md R14). -/

namespace Sys2Proof.Machine

/-- `INC <- (ARG > CUR_HZ)`, unsigned (R14, 44 R146). -/
def increasing (arg cur : Word) : Bool := decide (cur.toNat < arg.toNat)

/-- The no-op test of R146: `ARG = CUR_HZ`. -/
def atTarget (arg cur : Word) : Bool := decide (arg = cur)

/-- The idempotent-exit test of R123: `V_OLD = V_CORE`. -/
def codeMatches (old core : BitVec 5) : Bool := decide (old = core)

/-- The exit test of the lock poll (R154): bit `LOCK` of the value read. -/
def lockSeen (c : Params) (r : Word) : Bool := r.getLsbD c.lockBit.toNat

end Sys2Proof.Machine
end

