-- ==== Sys2Proof/Machine/Operands.lean ====
section
/-! DEFINITION. Fields of a register value and operand assembly (00_scope.md R8, 30_encoding.md R73), the named fields
of the three registers (10_state.md R16 to R18), and the wire codes of states, phases, statuses and responses
(30_encoding.md R66, R69). -/

namespace Sys2Proof.Machine

/-- The bits of a field in place: `mask << off` (R73). -/
def fieldBits (off : BitVec 5) (mask : BitVec 7) : Word :=
  mask.setWidth 32 <<< off.toNat

/-- `field(r, off, mask) = (r >> off) & mask` (R8); at most 7 bits wide (R80). -/
def field (r : Word) (off : BitVec 5) (mask : BitVec 7) : BitVec 7 :=
  (r >>> off.toNat).setWidth 7 &&& mask

/-- `insert(r, off, mask, v) = (r & ~(mask << off)) | ((v & mask) << off)` (R8). -/
def insertField (r : Word) (off : BitVec 5) (mask v : BitVec 7) : Word :=
  (r &&& ~~~ fieldBits off mask) ||| fieldBits off (v &&& mask)

/-- `1 << off` (R73). -/
def bitAt (bit : BitVec 5) : Word := 1#32 <<< bit.toNat

/-- `r | (1 << off)` (40 R81). -/
def setBit (r : Word) (bit : BitVec 5) : Word := r ||| bitAt bit

/-- `r & ~(1 << off)` (40 R82). -/
def clearBit (r : Word) (bit : BitVec 5) : Word := r &&& ~~~ bitAt bit

/-- `r & ~(mask << off)` (40 R84). -/
def clearFieldBits (r : Word) (off : BitVec 5) (mask : BitVec 7) : Word := r &&& ~~~ fieldBits off mask

/-- `v[i]` as a Bool (R8). -/
def testBit (r : Word) (bit : BitVec 5) : Bool := r.getLsbD bit.toNat

/-! ### The named fields, of a register value under given parameters -/

/-- `DIV_SELECT` of a PLL value (R16). -/
def divOf (c : Params) (w : Word) : BitVec 7 := field w c.divOff c.divMask

/-- `BYPASS_CLK_SRC` of a PLL value (R16). -/
def srcOf (c : Params) (w : Word) : BitVec 7 := field w c.srcOff c.srcMask

/-- `BYPASS` of a PLL value (R16). -/
def bypOf (c : Params) (w : Word) : Bool := testBit w c.bypBit

/-- `PODF` of a CDIV value (R17); 3 bits, the width of latch RD_PODF (R12). -/
def podfOf (c : Params) (w : Word) : BitVec 3 := (field w c.podfOff c.podfMask).setWidth 3

/-- `VCORE` of a VTARG value (R18), a 5-bit VoltageCode. -/
def vcoreOf (c : Params) (w : Word) : BitVec 5 := (field w c.vcoreOff Config.vcodeMask).setWidth 5

/-- `VSOC` of a VTARG value (R18). -/
def vsocOf (c : Params) (w : Word) : BitVec 5 := (field w c.vsocOff Config.vcodeMask).setWidth 5

/-- The word rule R126 writes: both voltage targets inserted into the value read. -/
def withTargets (c : Params) (w : Word) (core soc : BitVec 5) : Word :=
  insertField (insertField w c.vcoreOff Config.vcodeMask (core.setWidth 7)) c.vsocOff Config.vcodeMask (soc.setWidth 7)

/-! ### Wire codes -/

/-- The 5-bit code of a sequencer state (R69). -/
def SeqState.code : SeqState → BitVec 5
  | .sIdle => 0 | .sEntry => 1 | .sLookup => 2 | .sRdDiv => 3 | .sRdPodf => 4
  | .sVQuant => 5 | .sVRdCur => 6 | .sVRmwRd => 7 | .sVRmwWr => 8 | .sVSettle => 9 | .sVDiag => 10
  | .sBypsrcRd => 11 | .sBypsrcWr => 12 | .sBypsetRd => 13 | .sBypsetWr => 14 | .sDivselRd => 15 | .sDivselWr => 16
  | .sWaitLock => 17 | .sUnbypRd => 18 | .sUnbypWr => 19 | .sPodfRd => 20 | .sPodfWr => 21 | .sPost => 22
  | .sRespond => 23

/-- The state a 5-bit code stands for; codes 24 to 31, never produced, are taken as `S_IDLE` (R25; log 21). -/
def SeqState.ofCode (c : BitVec 5) : SeqState :=
  match c.toNat with
  | 1 => .sEntry | 2 => .sLookup | 3 => .sRdDiv | 4 => .sRdPodf
  | 5 => .sVQuant | 6 => .sVRdCur | 7 => .sVRmwRd | 8 => .sVRmwWr | 9 => .sVSettle | 10 => .sVDiag
  | 11 => .sBypsrcRd | 12 => .sBypsrcWr | 13 => .sBypsetRd | 14 => .sBypsetWr | 15 => .sDivselRd | 16 => .sDivselWr
  | 17 => .sWaitLock | 18 => .sUnbypRd | 19 => .sUnbypWr | 20 => .sPodfRd | 21 => .sPodfWr | 22 => .sPost
  | 23 => .sRespond
  | _ => .sIdle

/-- The 2-bit code of `VPHASE` (R12). -/
def VPhase.code : VPhase → BitVec 2
  | .none => 0 | .pre => 1 | .post => 2 | .alone => 3

/-- The 3-bit status code (R67). -/
def Status.code : Status → BitVec 3
  | .ok => 0 | .unsupportedFrequency => 1 | .unsupportedFamily => 2 | .illegalCommand => 3 | .hardwareTimeout => 4

/-- The 35-bit response word `RW` (R66). -/
def Response.word (r : Response) : BitVec 35 := r.status.code ++ r.data

/-- The packed OperatingPoint of a LOOKUP response (30_encoding.md R68). -/
def packRow (r : Row) : Word :=
  r.uv ||| (r.div.setWidth 32 <<< 21) ||| (r.podf.setWidth 32 <<< 28)

end Sys2Proof.Machine
end

