-- ==== Sys2Proof/Machine/Ops.lean ====
section
/-! DEFINITION. The shared operations: bus reads and writes with their side effects (20_memory.md R44 to R51, 45 R171,
R172, R177, R178), raising an error and returning from one (60_exceptions.md R196, R198; 44 R161), and emitting
diagnostic events (R74). -/

namespace Sys2Proof.Machine

/-- The bus address of a register (20_memory.md R41). -/
def addrOf (c : Params) : Reg → Word
  | .pll => c.aPll
  | .cdiv => c.aCdiv
  | .vtarg => c.aVtarg

/-- A PLL value with bit LOCK removed: what the PLL stores of it (45 R170, 20_memory.md R51). -/
def pllStored (c : Params) (w : Word) : Word := clearBit w c.lockBit

/-- What a bus read of a register returns: the stored bits, bit LOCK of PLL replaced by `pll_lock` (45 R171). -/
def busValue (r : Reg) (s : State) : Word :=
  match r with
  | .pll => if s.pllLock then setBit (pllStored s.cfg s.pll) s.cfg.lockBit else pllStored s.cfg s.pll
  | .cdiv => s.cdiv
  | .vtarg => s.vtarg

/-- The state after a bus read: the trace records it, nothing else changes (R44, R46). -/
def afterRead (r : Reg) (s : State) : State :=
  { s with bus := s.bus ++ [.rd (addrOf s.cfg r) (busValue r s)] }

/-- The register side of a bus write. PLL: every stored bit but LOCK is replaced, and lock is lost if DIV_SELECT
changes (45 R172). CDIV: all bits (R177). VTARG: all bits, and a ramp begins if a target changes (R178). -/
def storeReg (r : Reg) (w : Word) (s : State) : State :=
  match r with
  | .pll =>
    { s with
      pll := pllStored s.cfg w
      pllLock := s.pllLock && decide (divOf s.cfg w = divOf s.cfg s.pll) }
  | .cdiv => { s with cdiv := w }
  | .vtarg =>
    { s with
      vtarg := w
      railSettled := s.railSettled &&
        decide (vcoreOf s.cfg w = vcoreOf s.cfg s.vtarg ∧ vsocOf s.cfg w = vsocOf s.cfg s.vtarg) }

/-- One bus write (R44): the register takes it and the trace records the value as it was sent. -/
def memWrite (r : Reg) (w : Word) (s : State) : State :=
  { storeReg r w s with bus := s.bus ++ [.wr (addrOf s.cfg r) w] }

/-- READ (40 R86), and the first half of every read-modify-write: `TMP <- MemRead(addr(reg), 4)`. -/
def readToTmp (r : Reg) (s : State) : State :=
  { afterRead r s with tmp := busValue r s }

/-- `raise E(info)` (60_exceptions.md R196): `STATUS <- code(E)`, `ST <- S_RESPOND`, nothing else. -/
def raise (e : Status) (s : State) : State :=
  { s with status := e, st := .sRespond }

/-- The successful end of a command's work: `STATUS <- OK; ST <- S_RESPOND`. -/
def succeed (s : State) : State :=
  { s with status := .ok, st := .sRespond }

/-- State `S_RESPOND` (44 R161), the return from an error and from success alike (60_exceptions.md R198). -/
def respond (s : State) : State :=
  { s with
    rsp := s.rsp ++ [⟨s.status, s.rdata⟩]
    rspOut := s.rspOut ++ [⟨s.status, s.rdata⟩]
    cmd := 0#4
    st := .sIdle }

/-- `emit Diag(V_OLD, V_CORE, V_SOC, V_UV)` (43 R128, 30_encoding.md R74). -/
def emitDiag (s : State) : State :=
  { s with diag := s.diag ++ [⟨s.vOld, s.vCore, s.vSoc, s.vUv⟩] }

/-- One step of a settle-delay countdown that has not ended: `DLY <- DLY - 1` (40 R88, 43 R127). -/
def countDown (s : State) : State :=
  { s with dly := s.dly - 1#32 }

end Sys2Proof.Machine
end

