-- ==== Sys2Proof/Machine/Table.lean ====
section
/-! DEFINITION. The operating-point multiplexer (41_operating_point_table.md): family gating, the table lookup, and the
sequencer state `S_LOOKUP` (44 R143). -/

namespace Sys2Proof.Machine

/-- `FamilyImplemented(f) = (f = FAM0)` (41 R101). -/
def familyImplemented (s : State) : Bool := decide (s.family = s.cfg.fam0)

/-- `Lookup(FAM0, hz)`: the row whose key equals `hz` exactly on all 32 bits, or none (41 R103). -/
def lookupRow (c : Params) (hz : Word) : Option Row :=
  c.table.find? (fun r => decide (r.key = hz))

/-- The latches take the resolved operating point (44 R143). -/
def latchRow (r : Row) (s : State) : State :=
  { s with opDiv := r.div, opPodf := r.podf, opUv := r.uv }

/-- State `S_LOOKUP` (44 R143) with a row found: LOOKUP answers with the packed row, SETFREQ goes on. -/
def lookupFound (r : Row) (s : State) : State :=
  if s.cmd = opLookup then succeed { latchRow r s with rdata := packRow r }
  else { latchRow r s with st := .sRdDiv }

/-- State `S_LOOKUP` (44 R143). `Lookup` is undefined for an unimplemented family (41 R103), which no run brings here:
a fault (log 18). -/
def ruleLookup (s : State) : Host.Outcome State Fault Refusal :=
  if familyImplemented s then
    match lookupRow s.cfg s.arg with
    | none => .next (raise .unsupportedFrequency s)
    | some r => .next (lookupFound r s)
  else .fault .lookupOfUnknownFamily

end Sys2Proof.Machine
end

