-- ==== Sys2Proof/Machine/Engine.lean ====
section
/-! DEFINITION. The sequencer's states outside the controller and the table (44_frequency_scaling_engine.md): acceptance
and dispatch, the current-state reader (42_current_state_reader.md), compare and direction, the PLL
reprogram-and-lock controller, the divider commit. -/

namespace Sys2Proof.Machine

/-- State `S_IDLE` (R141): a command word is accepted. -/
def accept (op : BitVec 4) (arg : Word) (s : State) : State :=
  { s with cmd := op, arg := arg, rdata := 0#32, st := .sEntry }

/-- State `S_ENTRY` (R142): dispatch and entry checks, in the order of 60 R197. -/
def ruleEntry (s : State) : State :=
  if s.cmd = opSetfreq ∨ s.cmd = opLookup then
    if familyImplemented s then { s with st := .sLookup } else raise .unsupportedFamily s
  else if s.cmd = opSetop then
    if familyImplemented s then { s with vUv := s.arg, vphase := .alone, st := .sVQuant }
    else raise .unsupportedFamily s
  else if s.cmd = opRdfreq then { s with st := .sRdDiv }
  else raise .illegalCommand s

/-- The frequency function `Freq(d, p) = ((OSC_HZ * d) / 2) / (p + 1)`, naturals, truncating (42 R112). -/
def freq (d : BitVec 7) (p : BitVec 3) : Word :=
  BitVec.ofNat 32 (Config.oscHz * d.toNat / 2 / (p.toNat + 1))

/-- State `S_RD_DIV` (R144): `GET PLL, DIV_OFF, DIV_MASK`. -/
def ruleRdDiv (s : State) : State :=
  { afterRead .pll s with rdDiv := divOf s.cfg (busValue .pll s), st := .sRdPodf }

/-- Pre-raise (R147): the tail of the `S_RD_PODF` step when the frequency differs. -/
def preRaise (s : State) : State :=
  if s.inc then { s with vUv := s.opUv, vphase := .pre, st := .sVQuant }
  else { s with st := .sBypsrcRd }

/-- Compare and direction check (R146). -/
def compareAndDirect (s : State) : State :=
  if atTarget s.arg s.curHz then succeed s
  else preRaise { s with inc := increasing s.arg s.curHz }

/-- The reads and the computation of `S_RD_PODF` (R145): `GET CDIV, PODF_OFF, PODF_MASK`, then `Freq`. -/
def readPodf (s : State) : State :=
  { afterRead .cdiv s with
    rdPodf := podfOf s.cfg (busValue .cdiv s)
    curHz := freq s.rdDiv (podfOf s.cfg (busValue .cdiv s)) }

/-- State `S_RD_PODF` (R145 to R147). -/
def ruleRdPodf (s : State) : State :=
  if s.cmd = opRdfreq then succeed { readPodf s with rdata := (readPodf s).curHz }
  else compareAndDirect (readPodf s)

/-- State `S_BYPSRC_RD` (R148). -/
def ruleBypsrcRd (s : State) : State := { readToTmp .pll s with st := .sBypsrcWr }

/-- State `S_BYPSRC_WR` (R149): the oscillator becomes the bypass source. -/
def ruleBypsrcWr (s : State) : State :=
  { memWrite .pll (insertField s.tmp s.cfg.srcOff s.cfg.srcMask s.cfg.srcOsc) s with st := .sBypsetRd }

/-- State `S_BYPSET_RD` (R150). -/
def ruleBypsetRd (s : State) : State := { readToTmp .pll s with st := .sBypsetWr }

/-- State `S_BYPSET_WR` (R151): bypass is asserted. -/
def ruleBypsetWr (s : State) : State :=
  { memWrite .pll (setBit s.tmp s.cfg.bypBit) s with st := .sDivselRd }

/-- State `S_DIVSEL_RD` (R152). -/
def ruleDivselRd (s : State) : State := { readToTmp .pll s with st := .sDivselWr }

/-- `POLLS <- 0`, only if LOCK_DEADLINE is configured (R153). -/
def startPolls (s : State) : State :=
  match s.cfg.lockDeadline with
  | none => s
  | some _ => { s with polls := 0#32 }

/-- State `S_DIVSEL_WR` (R153): the divider field is programmed, changed or not. -/
def ruleDivselWr (s : State) : State :=
  { startPolls (memWrite .pll (insertField s.tmp s.cfg.divOff s.cfg.divMask s.opDiv) s) with st := .sWaitLock }

/-- A poll that saw LOCK = 0 (R154, R155): without a deadline nothing more happens; with `some n` the poll is counted,
and after `n` of them HardwareTimeout is raised with the registers as they are. -/
def pollFailed (s : State) : State :=
  match s.cfg.lockDeadline with
  | none => s
  | some n =>
    if n.toNat ≤ (s.polls + 1#32).toNat then raise .hardwareTimeout { s with polls := s.polls + 1#32 }
    else { s with polls := s.polls + 1#32 }

/-- State `S_WAIT_LOCK` (R154, R155): one poll of `WAITUNTIL PLL, LOCK_BIT, 0x1, 1`. -/
def ruleWaitLock (s : State) : State :=
  if lockSeen s.cfg (busValue .pll s) then { afterRead .pll s with st := .sUnbypRd }
  else pollFailed (afterRead .pll s)

/-- State `S_UNBYP_RD` (R156). -/
def ruleUnbypRd (s : State) : State := { readToTmp .pll s with st := .sUnbypWr }

/-- State `S_UNBYP_WR` (R157): bypass is cleared. -/
def ruleUnbypWr (s : State) : State :=
  { memWrite .pll (clearBit s.tmp s.cfg.bypBit) s with st := .sPodfRd }

/-- State `S_PODF_RD` (R158). -/
def rulePodfRd (s : State) : State := { readToTmp .cdiv s with st := .sPodfWr }

/-- State `S_PODF_WR` (R159): the post-divider is committed. -/
def rulePodfWr (s : State) : State :=
  { memWrite .cdiv (insertField s.tmp s.cfg.podfOff s.cfg.podfMask (s.opPodf.setWidth 7)) s with st := .sPost }

/-- State `S_POST` (R160): post-lower, only if decreasing. -/
def rulePost (s : State) : State :=
  if s.inc then succeed s
  else { s with vUv := s.opUv, vphase := .post, st := .sVQuant }

end Sys2Proof.Machine
end

