-- ==== Sys2Proof/Machine/Controller.lean ====
section
/-! DEFINITION. The voltage-rail transition sequencer (43_operating_point_controller.md): the quantiser, the
secondary-rail code, and the six states `S_V_QUANT` to `S_V_DIAG` with their return. -/

namespace Sys2Proof.Machine

/-- The quantiser (R121): both comparisons first, then the linear map, truncating. -/
def quant (uv : Word) : BitVec 5 :=
  if uv.toNat < Config.uvMin then 0#5
  else if Config.uvMax < uv.toNat then 31#5
  else BitVec.ofNat 5 ((uv.toNat - Config.uvBase) / Config.uvStep)

/-- The secondary-rail code `max(c, SOC_MIN_CODE)` (R124). -/
def socCode (c : BitVec 5) : BitVec 5 :=
  if c.toNat < Config.socMinCode.toNat then Config.socMinCode else c

/-- `VReturn` (R129): back to the engine, or to the response. VPHASE = NONE cannot occur here: a fault (log 18). -/
def vReturn (s : State) : Host.Outcome State Fault Refusal :=
  match s.vphase with
  | .pre => .next { s with vphase := .none, st := .sBypsrcRd }
  | .post => .next (succeed { s with vphase := .none })
  | .alone => .next (succeed { s with vphase := .none })
  | .none => .fault .returnWithoutCall

/-- State `S_V_QUANT` (R122). -/
def ruleVQuant (s : State) : State := { s with vCore := quant s.vUv, st := .sVRdCur }

/-- State `S_V_RD_CUR` (R123, R124): `GET VTARG, VCORE_OFF, VCORE_MASK`; early return if the code is already there. -/
def ruleVRdCur (s : State) : Host.Outcome State Fault Refusal :=
  if codeMatches (vcoreOf s.cfg (busValue .vtarg s)) s.vCore then
    vReturn { afterRead .vtarg s with vOld := vcoreOf s.cfg (busValue .vtarg s) }
  else
    .next { afterRead .vtarg s with
      vOld := vcoreOf s.cfg (busValue .vtarg s)
      vSoc := socCode s.vCore
      st := .sVRmwRd }

/-- State `S_V_RMW_RD` (R125). -/
def ruleVRmwRd (s : State) : State := { readToTmp .vtarg s with st := .sVRmwWr }

/-- State `S_V_RMW_WR` (R126): both targets in one write, and the settle delay is loaded. -/
def ruleVRmwWr (s : State) : State :=
  { memWrite .vtarg (withTargets s.cfg s.tmp s.vCore s.vSoc) s with dly := s.cfg.settleTicks, st := .sVSettle }

/-- State `S_V_SETTLE` (R127). -/
def ruleVSettle (s : State) : State :=
  if s.dly = 0#32 then { s with st := .sVDiag } else countDown s

/-- State `S_V_DIAG` (R128). -/
def ruleVDiag (s : State) : Host.Outcome State Fault Refusal := vReturn (emitDiag s)

end Sys2Proof.Machine
end

