-- ==== Sys2Proof/Machine/Commands.lean ====
section
/-! DEFINITION. The four host commands. A command is carried out by sequencer steps, one rule per state (10_state.md
R11): the meaning of a command in a state is the step it takes there. In `S_IDLE` that is its acceptance (44 R141);
in every other state it is the rule `ST` selects, for the command that latches CMD and ARG hold (log 22). -/

namespace Sys2Proof.Machine

/-- The rule `ST` selects (30_encoding.md R69). `S_IDLE` has no step of its own without a word at the port (R141). -/
def ruleOf (s : State) : Host.Outcome State Fault Refusal :=
  match s.st with
  | .sIdle => .next s
  | .sEntry => .next (ruleEntry s)
  | .sLookup => ruleLookup s
  | .sRdDiv => .next (ruleRdDiv s)
  | .sRdPodf => .next (ruleRdPodf s)
  | .sVQuant => .next (ruleVQuant s)
  | .sVRdCur => ruleVRdCur s
  | .sVRmwRd => .next (ruleVRmwRd s)
  | .sVRmwWr => .next (ruleVRmwWr s)
  | .sVSettle => .next (ruleVSettle s)
  | .sVDiag => ruleVDiag s
  | .sBypsrcRd => .next (ruleBypsrcRd s)
  | .sBypsrcWr => .next (ruleBypsrcWr s)
  | .sBypsetRd => .next (ruleBypsetRd s)
  | .sBypsetWr => .next (ruleBypsetWr s)
  | .sDivselRd => .next (ruleDivselRd s)
  | .sDivselWr => .next (ruleDivselWr s)
  | .sWaitLock => .next (ruleWaitLock s)
  | .sUnbypRd => .next (ruleUnbypRd s)
  | .sUnbypWr => .next (ruleUnbypWr s)
  | .sPodfRd => .next (rulePodfRd s)
  | .sPodfWr => .next (rulePodfWr s)
  | .sPost => .next (rulePost s)
  | .sRespond => .next (respond s)

/-- The step of a command word with opcode `op` and operand `arg`: accepted in `S_IDLE`, the rule of `ST` elsewhere. -/
def commandStep (op : BitVec 4) (arg : Word) (s : State) : Host.Outcome State Fault Refusal :=
  if s.st = .sIdle then .next (accept op arg s) else ruleOf s

/-- SETFREQ (44 R140). Path: S_IDLE, S_ENTRY, S_LOOKUP, S_RD_DIV, S_RD_PODF, then S_RESPOND when already there, else
[controller], the PLL states S_BYPSRC_RD to S_UNBYP_WR, S_PODF_RD, S_PODF_WR, S_POST, [controller], S_RESPOND. -/
def execSetfreq (hz : Word) (s : State) : Host.Outcome State Fault Refusal := commandStep opSetfreq hz s

/-- RDFREQ (42 R110). Path: S_IDLE, S_ENTRY, S_RD_DIV, S_RD_PODF, S_RESPOND; the family is not checked. -/
def execRdfreq (ignored : Word) (s : State) : Host.Outcome State Fault Refusal := commandStep opRdfreq ignored s

/-- SETOP (43 R120). Path: S_IDLE, S_ENTRY, S_V_QUANT, S_V_RD_CUR, [S_V_RMW_RD, S_V_RMW_WR, S_V_SETTLE ..., S_V_DIAG],
S_RESPOND. -/
def execSetop (uv : Word) (s : State) : Host.Outcome State Fault Refusal := commandStep opSetop uv s

/-- LOOKUP (41 R100). Path: S_IDLE, S_ENTRY, S_LOOKUP, S_RESPOND. -/
def execLookup (hz : Word) (s : State) : Host.Outcome State Fault Refusal := commandStep opLookup hz s

end Sys2Proof.Machine
end

