-- ==== Sys2Proof/Machine/MicroOps.lean ====
section
/-! DEFINITION. The nine register-access micro-operations (40_register_primitives.md), run by themselves (log 10). A
read-modify-write is two steps, one bus transaction each, with the value read held in TMP between them (40 preamble;
20_memory.md R45). A micro-operation sets no flag and raises no error (R89). -/

namespace Sys2Proof.Machine

/-- The micro-operation in flight is over. -/
def finishMop (s : State) : State := { s with md := none, mphase := .first }

/-- The shared read-modify-write of SET, CLEAR, SETFIELD and CLEARFIELD (R89): a read into TMP, then one unconditional
write of the modified value. -/
def rmwStep (r : Reg) (modify : Word → Word) (s : State) : State :=
  match s.mphase with
  | .first => { readToTmp r s with mphase := .second }
  | .second => finishMop (memWrite r (modify s.tmp) s)

/-- GET (R80): the result is the field of the value read. -/
def execGet (r : Reg) (off : BitVec 5) (mask : BitVec 7) (s : State) : Host.Outcome State Fault Refusal :=
  .next (finishMop { afterRead r s with mopResult := field (busValue r s) off mask })

/-- SET (R81). -/
def execSet (r : Reg) (bit : BitVec 5) (s : State) : Host.Outcome State Fault Refusal :=
  .next (rmwStep r (fun w => setBit w bit) s)

/-- CLEAR (R82). -/
def execClear (r : Reg) (bit : BitVec 5) (s : State) : Host.Outcome State Fault Refusal :=
  .next (rmwStep r (fun w => clearBit w bit) s)

/-- SETFIELD (R83). -/
def execSetfield (r : Reg) (off : BitVec 5) (mask val : BitVec 7) (s : State) : Host.Outcome State Fault Refusal :=
  .next (rmwStep r (fun w => insertField w off mask val) s)

/-- CLEARFIELD (R84). -/
def execClearfield (r : Reg) (off : BitVec 5) (mask : BitVec 7) (s : State) : Host.Outcome State Fault Refusal :=
  .next (rmwStep r (fun w => clearFieldBits w off mask) s)

/-- The exit test of a poll (R85): `((r >> off) & mask) = (val & mask)`. -/
def pollHolds (w : Word) (off : BitVec 5) (mask expected : BitVec 7) : Bool :=
  decide (field w off mask = expected &&& mask)

/-- WAITUNTIL (R85): one poll a step; it is over at the first read for which the condition holds. -/
def execWaituntil (r : Reg) (off : BitVec 5) (mask expected : BitVec 7) (s : State) : Host.Outcome State Fault Refusal :=
  .next (if pollHolds (busValue r s) off mask expected then finishMop (afterRead r s) else afterRead r s)

/-- READ (R86). -/
def execRead (r : Reg) (s : State) : Host.Outcome State Fault Refusal :=
  .next (finishMop (readToTmp r s))

/-- The data of a stand-alone WRITE (R87). VTARG: the function of its one invoking rule, 43 R126. PLL and CDIV: no rule
invokes WRITE on them, so the value is free (log 12). -/
def writeData (r : Reg) (s : State) : Word :=
  match r with
  | .vtarg => withTargets s.cfg s.tmp s.vCore s.vSoc
  | .pll => Config.freeWriteData s.freeCtr
  | .cdiv => Config.freeWriteData s.freeCtr

/-- A free value has been drawn where `writeData` used one (log 13). -/
def drawFor (r : Reg) (s : State) : State :=
  match r with
  | .vtarg => s
  | .pll => { s with freeCtr := s.freeCtr + 1 }
  | .cdiv => { s with freeCtr := s.freeCtr + 1 }

/-- WRITE (R87). -/
def execWrite (r : Reg) (s : State) : Host.Outcome State Fault Refusal :=
  .next (finishMop (drawFor r (memWrite r (writeData r s) s)))

/-- DELAY (R88): the first step loads DLY; then one decrement a step; the step that finds 0 ends it, as in 43 R127. -/
def execDelay (s : State) : Host.Outcome State Fault Refusal :=
  .next (match s.mphase with
    | .first => { s with dly := s.cfg.settleTicks, mphase := .second }
    | .second => if s.dly = 0#32 then finishMop s else countDown s)

end Sys2Proof.Machine
end

