-- ==== Sys2Proof/Machine/Dispatch.lean ====
section
/-! DEFINITION. The dispatch: one arm per instruction. -/

namespace Sys2Proof.Machine

def exec (i : Instr) (s : State) : Host.Outcome State Fault Refusal :=
  match i with
  | .setfreq hz => Sys2Proof.Machine.execSetfreq hz s
  | .rdfreq ignored => Sys2Proof.Machine.execRdfreq ignored s
  | .setop uv => Sys2Proof.Machine.execSetop uv s
  | .lookup hz => Sys2Proof.Machine.execLookup hz s
  | .get reg off mask => Sys2Proof.Machine.execGet reg off mask s
  | .set reg bit => Sys2Proof.Machine.execSet reg bit s
  | .clear reg bit => Sys2Proof.Machine.execClear reg bit s
  | .setfield reg off mask val => Sys2Proof.Machine.execSetfield reg off mask val s
  | .clearfield reg off mask => Sys2Proof.Machine.execClearfield reg off mask s
  | .waituntil reg off mask expected => Sys2Proof.Machine.execWaituntil reg off mask expected s
  | .read reg => Sys2Proof.Machine.execRead reg s
  | .write reg => Sys2Proof.Machine.execWrite reg s
  | .delay => Sys2Proof.Machine.execDelay s

end Sys2Proof.Machine
end

