-- ==== Sys2Proof/Machine/Environment.lean ====
section
/-! DEFINITION. The agents outside the sequencer (45_pll_and_rail_environment.md), the reset event (70 R220, R223), the
excluded foreign writer (45 R182), and the clock outputs as functions of the state (45 R175, R176, R181). -/

namespace Sys2Proof.Machine

/-- Lock acquisition (R173): enabled whenever `pll_lock` is false; when already true nothing changes. -/
def pllLocks (s : State) : State := { s with pllLock := true }

/-- Lock loss (R174): a step of the PLL only if PLL_MAY_DROP_LOCK (log 7). -/
def pllDropsLock (s : State) : State :=
  if s.cfg.pllMayDropLock then { s with pllLock := false } else s

/-- Settling of the rails (R179). -/
def railsSettle (s : State) : State := { s with railSettled := true }

/-- A host presents a word; it is held at the port until the sequencer takes it (44 R141; log 9). -/
def hostPresent (w : FetchWord) (s : State) : State := { s with port := s.port ++ [w] }

/-- The host consumes the oldest response (10_state.md R10). -/
def hostConsume (s : State) : State := { s with rspOut := s.rspOut.tail }

/-- Nothing is in flight: the sequencer rests in S_IDLE and no stand-alone micro-operation runs. -/
def atRest (s : State) : Bool := decide (s.st = .sIdle) && s.md.isNone

/-- The reset event (70 R220): ST, CMD and VPHASE are forced; "every other latch unspecified" takes the value the model
names at reset (log 3, log 19); the registers, the strap, the port and the traces are untouched. -/
def resetEvent (s : State) : State :=
  { s with
    st := .sIdle
    cmd := 0#4
    vphase := .none
    arg := State.reset.arg
    opDiv := State.reset.opDiv
    opPodf := State.reset.opPodf
    opUv := State.reset.opUv
    rdDiv := State.reset.rdDiv
    rdPodf := State.reset.rdPodf
    curHz := State.reset.curHz
    inc := State.reset.inc
    vUv := State.reset.vUv
    vCore := State.reset.vCore
    vOld := State.reset.vOld
    vSoc := State.reset.vSoc
    tmp := State.reset.tmp
    dly := State.reset.dly
    polls := State.reset.polls
    status := State.reset.status
    rdata := State.reset.rdata }

/-- Reset at rest is R220; reset in flight is given no semantics (R223; log 19). -/
def resetAsserted (s : State) : Host.Outcome State Fault Refusal :=
  if atRest s then .next (resetEvent s) else .refused .resetInFlight

/-- A write by a foreign bus master: refused (93 U3; log 20). -/
def foreignWrite (_r : Reg) (_w : Word) (_s : State) : Host.Outcome State Fault Refusal := .refused .foreignWriter

/-! ### Physical quantities, functions of the state, read by no rule of the sequencer -/

/-- A clock output: a number of Hz, `unknown` (another bypass source) or `unstable` (PLL not locked) (R175). -/
inductive ClockOut where
  | hz (n : Nat)
  | unknown
  | unstable
  deriving DecidableEq, Repr

/-- The PLL clock output `f_pllout` (R175). -/
def fPllout (s : State) : ClockOut :=
  if bypOf s.cfg s.pll then
    if srcOf s.cfg s.pll = s.cfg.srcOsc then .hz Config.oscHz else .unknown
  else if s.pllLock then .hz (Config.oscHz * (divOf s.cfg s.pll).toNat / 2)
  else .unstable

/-- The core clock `f_core = f_pllout / (PODF + 1)`, `unknown` and `unstable` propagating (R176). -/
def fCore (s : State) : ClockOut :=
  match fPllout s with
  | .hz n => .hz (n / ((podfOf s.cfg s.cdiv).toNat + 1))
  | .unknown => .unknown
  | .unstable => .unstable

/-- What a VoltageCode asks of a rail (R181): a number of microvolts for codes 1 to 30; what the regulator does with
codes 0 and 31 is not in the source (93 U6). -/
inductive RailTarget where
  | microvolts (n : Nat)
  | notInSource
  deriving DecidableEq, Repr

/-- R181. -/
def railTarget (c : BitVec 5) : RailTarget :=
  if c = 0#5 ∨ c = 31#5 then .notInSource
  else .microvolts (Config.uvBase + Config.uvStep * c.toNat)

end Sys2Proof.Machine
end

