-- ==== Sys2Proof/Machine/Schedule.lean ====
section
/-! DEFINITION. What moves next: the sequencer's own turn, with the word it works on, and the moves of the other agents
(10_state.md R10). `Step.lean` only calls `takeTurn`. -/

namespace Sys2Proof.Machine

/-- The oldest word leaves the port (44 R141). -/
def dropPort (s : State) : State := { s with port := s.port.tail }

/-- A stand-alone micro-operation begins (log 10, log 11). -/
def startMop (d : BitVec 25) (s : State) : State := { s with md := some d, mphase := .first }

/-- The word the sequencer works on in this step, and the state in which it does. A stand-alone micro-operation in
flight goes on; a command in flight is `CMD` and `ARG` (44 R142); in `S_IDLE` the oldest word at the port is taken
(R141); with no word the sequencer has no step. -/
def fetch (s : State) : Option (FetchWord × State) :=
  match s.md with
  | some d => some (.mop d, s)
  | none =>
    if s.st = .sIdle then
      match s.port with
      | [] => none
      | .cmd cw :: _ => some (.cmd cw, dropPort s)
      | .mop d :: _ => some (.mop d, startMop d (dropPort s))
    else some (.cmd (cmdWord s.cmd s.arg), s)

/-- The word decides the meaning. A reserved opcode is accepted and answered by the same rules (30_encoding.md R63); a
reserved descriptor is refused (93 U8). -/
def runWord (w : FetchWord) (s : State) : Host.Outcome State Fault Refusal :=
  match decode w with
  | .ok i => exec i s
  | .error (.reservedOpcode op arg) => commandStep op arg s
  | .error (.reservedKind _) => .refused .reservedDescriptor
  | .error .reservedReg => .refused .reservedDescriptor

/-- The sequencer's turn. At rest with no word at the port it waits (44 R141, R165; log 8). -/
def seqTurn (s : State) : Host.Outcome State Fault Refusal :=
  match fetch s with
  | none => .next s
  | some (w, s') => runWord w s'

/-- One move of one agent. -/
def takeMove (m : Move) (s : State) : Host.Outcome State Fault Refusal :=
  match m with
  | .sequencer => seqTurn s
  | .hostPresent w => .next (hostPresent w s)
  | .hostConsume => .next (hostConsume s)
  | .pllLocks => .next (pllLocks s)
  | .pllDropsLock => .next (pllDropsLock s)
  | .railsSettle => .next (railsSettle s)
  | .resetAsserted => resetAsserted s
  | .foreignWrite r w => foreignWrite r w s

/-- The next scheduled move; with none scheduled the sequencer moves (log 6). -/
def takeTurn (s : State) : Host.Outcome State Fault Refusal :=
  match s.sched with
  | [] => seqTurn s
  | m :: rest => takeMove m { s with sched := rest }

/-- `s` with a table word first at the port of a resting sequencer whose turn it is (log 27). -/
def placeWord (s : State) (w : FetchWord) : State :=
  { s with st := .sIdle, md := none, mphase := .first, sched := [], port := w :: s.port }

end Sys2Proof.Machine
end

