-- ==== Sys2Proof/Machine/Step.lean ====
section
/-! DEFINITION. One step of the machine, and how the host places an instruction for it. -/

namespace Sys2Proof.Machine

/-- One step: the agent whose turn it is moves (10_state.md R10). -/
def step (s : State) : Host.Outcome State Fault Refusal := takeTurn s

/-- The table word `w` placed where the next step takes its instruction: first at the command port, the sequencer in
`S_IDLE` and next to move (log 27). -/
def State.withFetchWord (s : State) (nbits w : Nat) : State := placeWord s (tableFetchWord nbits w)

end Sys2Proof.Machine
end

