-- ==== Sys2Proof/Safety.lean ====
section
/-! DEFINITION. The terms claims are stated in: well-formed parameters (00_scope.md R7, 41 R105), runs of one
instruction and of a schedule, the coherence invariant of the sequencer, the macro-states (10_state.md R24) and their
edges (44 R162), and the premises and observations of the spec's whole-machine rules. -/

namespace Sys2Proof

open Machine

/-! ### The constraints on the parameters -/

/-- What every instance of the parameters must meet: 00_scope.md R7 (a) to (f), 20_memory.md R41 (three distinct
addresses), 30_encoding.md R68 (table voltages below 2^21), 41 R102 (one row per key), 41 R105, 44 R155 (`n >= 1`). -/
structure Params.WF (c : Params) : Prop where
  pllCdivApart : c.aPll ≠ c.aCdiv
  pllVtargApart : c.aPll ≠ c.aVtarg
  cdivVtargApart : c.aCdiv ≠ c.aVtarg
  /-- R7 (a): every field lies inside its register. -/
  divFits : fieldFits c.divOff c.divMask = true
  srcFits : fieldFits c.srcOff c.srcMask = true
  podfFits : fieldFits c.podfOff c.podfMask = true
  vcoreFits : fieldFits c.vcoreOff Config.vcodeMask = true
  vsocFits : fieldFits c.vsocOff Config.vcodeMask = true
  /-- R7 (a), (b): the fields of one register are pairwise disjoint. -/
  divSrcApart : fieldBits c.divOff c.divMask &&& fieldBits c.srcOff c.srcMask = 0#32
  divBypApart : fieldBits c.divOff c.divMask &&& bitAt c.bypBit = 0#32
  divLockApart : fieldBits c.divOff c.divMask &&& bitAt c.lockBit = 0#32
  srcBypApart : fieldBits c.srcOff c.srcMask &&& bitAt c.bypBit = 0#32
  srcLockApart : fieldBits c.srcOff c.srcMask &&& bitAt c.lockBit = 0#32
  bypLockApart : c.bypBit ≠ c.lockBit
  targetsApart : fieldBits c.vcoreOff Config.vcodeMask &&& fieldBits c.vsocOff Config.vcodeMask = 0#32
  /-- The oscillator's code fits its field, and PODF fits its 3-bit latches (10_state.md R12). -/
  oscFits : c.srcOsc &&& c.srcMask = c.srcOsc
  podfNarrow : c.podfMask &&& 0x7#7 = c.podfMask
  /-- R7 (c). -/
  rowDivFits : ∀ r ∈ c.table, r.div &&& c.divMask = r.div
  rowPodfFits : ∀ r ∈ c.table, r.podf.setWidth 7 &&& c.podfMask = r.podf.setWidth 7
  /-- R7 (d). -/
  noOverflow : Config.oscHz * c.divMask.toNat < 2 ^ 32
  /-- R7 (e). -/
  rowFreq : ∀ r ∈ c.table, freq r.div r.podf = r.key
  /-- R7 (f). -/
  settlePositive : 1 ≤ c.settleTicks.toNat
  rowKeysApart : c.table.Pairwise (fun a b => a.key ≠ b.key)
  rowUvSmall : ∀ r ∈ c.table, r.uv.toNat < 2 ^ 21
  /-- R105. -/
  rowsMonotone : ∀ a ∈ c.table, ∀ b ∈ c.table, a.key.toNat < b.key.toNat → a.uv.toNat ≤ b.uv.toNat
  deadlinePositive : ∀ n, c.lockDeadline = some n → 1 ≤ n.toNat

namespace Machine

/-! ### Runs -/

/-- The instruction is one of the four host commands (30_encoding.md R61). -/
def isCommand : Instr → Bool
  | .setfreq _ => true
  | .rdfreq _ => true
  | .setop _ => true
  | .lookup _ => true
  | .get _ _ _ => false
  | .set _ _ => false
  | .clear _ _ => false
  | .setfield _ _ _ _ => false
  | .clearfield _ _ _ => false
  | .waituntil _ _ _ _ => false
  | .read _ => false
  | .write _ => false
  | .delay => false

/-- The register operand of a micro-operation (30_encoding.md R65); a micro-operation touches exactly this one
(40 R89 (c)). A command has none, and neither has DELAY. -/
def targetOf : Instr → Option Reg
  | .setfreq _ => none
  | .rdfreq _ => none
  | .setop _ => none
  | .lookup _ => none
  | .get r _ _ => some r
  | .set r _ => some r
  | .clear r _ => some r
  | .setfield r _ _ _ => some r
  | .clearfield r _ _ => some r
  | .waituntil r _ _ _ => some r
  | .read r => some r
  | .write r => some r
  | .delay => none

/-- `n` sequencer steps of one instruction, no other agent moving between them. -/
def execTimes (i : Instr) : Nat → State → Host.Outcome State Fault Refusal
  | 0, s => .next s
  | n + 1, s =>
    match exec i s with
    | .next t => execTimes i n t
    | .fault f => .fault f
    | .refused r => .refused r

/-- The moves of a list, one after another. -/
def runMoves : List Move → State → Host.Outcome State Fault Refusal
  | [], s => .next s
  | m :: ms, s =>
    match takeMove m s with
    | .next t => runMoves ms t
    | .fault f => .fault f
    | .refused r => .refused r

/-! ### Observations -/

/-- A command is in flight: the sequencer has left S_IDLE and no stand-alone micro-operation runs. -/
abbrev CommandInFlight (s : State) : Prop := s.md = none ∧ s.st ≠ .sIdle

/-- It is the sequencer's turn. -/
abbrev SequencerMoves (s : State) : Prop := s.sched = [] ∨ ∃ rest, s.sched = .sequencer :: rest

/-- The write events of a bus trace: DOC0's write-count instrument counts them (60_exceptions.md R209). -/
def writesOf (t : List BusEvent) : List BusEvent :=
  t.filter (fun e => match e with | .wr _ _ => true | .rd _ _ => false)

/-- What a bus trace looks like with the data left out: read (false) or write (true), and the address. -/
def shapeOf (t : List BusEvent) : List (Bool × Word) :=
  t.map (fun e => match e with | .rd a _ => (false, a) | .wr a _ => (true, a))

/-- The current frequency as the reader computes it from the two fields (42 R112). -/
def fieldsHz (s : State) : Word := freq (divOf s.cfg s.pll) (podfOf s.cfg s.cdiv)

/-- The reserved opcodes (30_encoding.md R63). -/
abbrev ReservedOpcode (op : BitVec 4) : Prop := op = 0#4 ∨ 5 ≤ op.toNat

/-- `s` with every working latch that R12 leaves unspecified at reset, and POLLS, taken from `l`: what a command may
not depend on when it is accepted (10_state.md R13). -/
def withLatches (l s : State) : State :=
  { s with
    arg := l.arg, opDiv := l.opDiv, opPodf := l.opPodf, opUv := l.opUv, rdDiv := l.rdDiv, rdPodf := l.rdPodf
    curHz := l.curHz, inc := l.inc, vUv := l.vUv, vCore := l.vCore, vOld := l.vOld, vSoc := l.vSoc, tmp := l.tmp
    dly := l.dly, polls := l.polls, status := l.status, rdata := l.rdata }

/-- A host command word, not a stand-alone micro-operation. -/
def isCmdWord : FetchWord → Bool
  | .cmd _ => true
  | .mop _ => false

/-- The move presents no stand-alone micro-operation. -/
def presentsNoMop : Move → Bool
  | .hostPresent w => isCmdWord w
  | .sequencer => true
  | .hostConsume => true
  | .pllLocks => true
  | .pllDropsLock => true
  | .railsSettle => true
  | .resetAsserted => true
  | .foreignWrite _ _ => true

/-- `SETTLE_SUFFICIENT` (45 R180), a premise a claim about physical rails takes, never part of the step: the rails have
settled whenever the sequencer is about to leave S_V_SETTLE. -/
abbrev SettleSufficient (s : State) : Prop := s.st = .sVSettle → s.dly = 0#32 → s.railSettled = true

/-! ### The coherence invariant of the sequencer -/

/-- A SETFREQ in flight whose operating point has been resolved (44 R143). -/
def Resolved (s : State) : Prop :=
  s.cmd = opSetfreq ∧ s.family = s.cfg.fam0 ∧
    ∃ r, lookupRow s.cfg s.arg = some r ∧ s.opDiv = r.div ∧ s.opPodf = r.podf ∧ s.opUv = r.uv

/-- With a PLL that keeps its lock, it is locked (45 R174). -/
def LockHeld (s : State) : Prop := s.cfg.pllMayDropLock = false → s.pllLock = true

/-- The PLL transition is complete: not bypassed, source the oscillator, locked, the fields give the target (70 R239). -/
def Arrived (s : State) : Prop :=
  bypOf s.cfg s.pll = false ∧ srcOf s.cfg s.pll = s.cfg.srcOsc ∧ LockHeld s ∧ fieldsHz s = s.arg

/-- A call of the controller is running: one of its three callers (43, first paragraph). -/
def Calling (s : State) : Prop :=
  s.rdata = 0#32 ∧ s.family = s.cfg.fam0 ∧
    ((s.vphase = .alone ∧ s.cmd = opSetop ∧ s.vUv = s.arg) ∨
     (s.vphase = .pre ∧ Resolved s ∧ s.inc = true ∧ s.vUv = s.opUv) ∨
     (s.vphase = .post ∧ Resolved s ∧ s.inc = false ∧ s.vUv = s.opUv ∧ Arrived s))

/-- A frequency change is under way outside the controller; when it is an increase, the core-rail target already is
the new operating point's (70 R225). -/
def Changing (s : State) : Prop :=
  s.rdata = 0#32 ∧ s.vphase = .none ∧ Resolved s ∧
    (s.inc = true → vcoreOf s.cfg s.vtarg = quant s.opUv)

/-- The bypass source is the oscillator (44 R149). -/
def OscSelected (s : State) : Prop := srcOf s.cfg s.pll = s.cfg.srcOsc

/-- The core is insulated: bypassed onto the oscillator (70 R227). -/
def Insulated (s : State) : Prop := OscSelected s ∧ bypOf s.cfg s.pll = true

/-- The new divider is programmed (44 R153). -/
def DividerSet (s : State) : Prop := divOf s.cfg s.pll = s.opDiv

/-- What TMP holds in the write half of a read-modify-write of PLL: the register, but for bit LOCK. -/
def TmpIsPll (s : State) : Prop := pllStored s.cfg s.tmp = s.pll

/-- What holds in each state of the sequencer. -/
def PathInv (s : State) : Prop :=
  match s.st with
  | .sIdle => s.cmd = 0#4 ∧ s.vphase = .none
  | .sEntry => s.rdata = 0#32 ∧ s.vphase = .none
  | .sLookup =>
    s.rdata = 0#32 ∧ s.vphase = .none ∧ (s.cmd = opSetfreq ∨ s.cmd = opLookup) ∧ s.family = s.cfg.fam0
  | .sRdDiv => s.rdata = 0#32 ∧ s.vphase = .none ∧ (s.cmd = opRdfreq ∨ Resolved s)
  | .sRdPodf =>
    s.rdata = 0#32 ∧ s.vphase = .none ∧ (s.cmd = opRdfreq ∨ Resolved s) ∧ s.rdDiv = divOf s.cfg s.pll
  | .sVQuant => Calling s
  | .sVRdCur => Calling s ∧ s.vCore = quant s.vUv
  | .sVRmwRd => Calling s ∧ s.vCore = quant s.vUv ∧ s.vSoc = socCode s.vCore ∧ s.vOld ≠ s.vCore
  | .sVRmwWr =>
    Calling s ∧ s.vCore = quant s.vUv ∧ s.vSoc = socCode s.vCore ∧ s.vOld ≠ s.vCore ∧ s.tmp = s.vtarg
  | .sVSettle =>
    Calling s ∧ s.vCore = quant s.vUv ∧ s.vSoc = socCode s.vCore ∧ s.vOld ≠ s.vCore ∧
      vcoreOf s.cfg s.vtarg = s.vCore ∧ vsocOf s.cfg s.vtarg = s.vSoc
  | .sVDiag =>
    Calling s ∧ s.vCore = quant s.vUv ∧ s.vSoc = socCode s.vCore ∧ s.vOld ≠ s.vCore ∧
      vcoreOf s.cfg s.vtarg = s.vCore ∧ vsocOf s.cfg s.vtarg = s.vSoc
  | .sBypsrcRd => Changing s
  | .sBypsrcWr => Changing s ∧ TmpIsPll s
  | .sBypsetRd => Changing s ∧ OscSelected s
  | .sBypsetWr => Changing s ∧ OscSelected s ∧ TmpIsPll s
  | .sDivselRd => Changing s ∧ Insulated s
  | .sDivselWr => Changing s ∧ Insulated s ∧ TmpIsPll s
  | .sWaitLock => Changing s ∧ Insulated s ∧ DividerSet s
  | .sUnbypRd => Changing s ∧ Insulated s ∧ DividerSet s ∧ LockHeld s
  | .sUnbypWr => Changing s ∧ Insulated s ∧ DividerSet s ∧ LockHeld s ∧ TmpIsPll s
  | .sPodfRd => Changing s ∧ OscSelected s ∧ bypOf s.cfg s.pll = false ∧ DividerSet s ∧ LockHeld s
  | .sPodfWr =>
    Changing s ∧ OscSelected s ∧ bypOf s.cfg s.pll = false ∧ DividerSet s ∧ LockHeld s ∧ s.tmp = s.cdiv
  | .sPost => Changing s ∧ Arrived s
  | .sRespond =>
    s.vphase = .none ∧ (s.status ≠ .ok → s.rdata = 0#32) ∧
      (s.cmd = opSetfreq → s.rdata = 0#32 ∧ (s.status = .ok → fieldsHz s = s.arg)) ∧
      (s.cmd = opSetop → s.rdata = 0#32) ∧
      (s.cmd = opRdfreq → s.status = .ok ∧ s.rdata = fieldsHz s)

/-- The invariant every step keeps: well-formed parameters, bit LOCK never stored (45 R170), a stand-alone
micro-operation only while the sequencer is idle, and the state's own facts. -/
structure Inv (s : State) : Prop where
  cfgWF : s.cfg.WF
  lockNotStored : pllStored s.cfg s.pll = s.pll
  mopAtIdle : s.md ≠ none → s.st = .sIdle
  secondHalf : s.mphase = .second → s.md ≠ none
  path : PathInv s

/-! ### Macro-states -/

/-- DOC0's eight macro-states (10_state.md R11, R24). -/
inductive Macro where
  | idle | lookupTarget | voltageRaise | bypass | waitLock | unbypass | dividerCommit | voltageLower
  deriving DecidableEq, Repr

/-- The macro-state of a state (R24); a stand-alone SETOP's controller states belong to none. -/
def macroOf (s : State) : Option Macro :=
  match s.st with
  | .sIdle => some .idle
  | .sEntry => some .idle
  | .sRespond => some .idle
  | .sLookup => some .lookupTarget
  | .sRdDiv => some .lookupTarget
  | .sRdPodf => some .lookupTarget
  | .sVQuant => ofPhase s.vphase
  | .sVRdCur => ofPhase s.vphase
  | .sVRmwRd => ofPhase s.vphase
  | .sVRmwWr => ofPhase s.vphase
  | .sVSettle => ofPhase s.vphase
  | .sVDiag => ofPhase s.vphase
  | .sBypsrcRd => some .bypass
  | .sBypsrcWr => some .bypass
  | .sBypsetRd => some .bypass
  | .sBypsetWr => some .bypass
  | .sDivselRd => some .bypass
  | .sDivselWr => some .bypass
  | .sWaitLock => some .waitLock
  | .sUnbypRd => some .unbypass
  | .sUnbypWr => some .unbypass
  | .sPodfRd => some .dividerCommit
  | .sPodfWr => some .dividerCommit
  | .sPost => some .voltageLower
where
  /-- `VoltageRaise` while VPHASE = PRE, `VoltageLower` while VPHASE = POST (R24). -/
  ofPhase : VPhase → Option Macro
    | .pre => some .voltageRaise
    | .post => some .voltageLower
    | .alone => none
    | .none => none

end Machine

end Sys2Proof
end

