-- ==== Sys2Proof/Certificates/Slice0/Obligations.lean ====
section
/-! DEFINITION. The statements for the provers, one `def Obligations.<Name> : Prop` each, in the order of
OBLIGATIONS.json. Rule numbers are those of spec/. Unless a statement says otherwise it holds for every instance of the
parameters (State.cfg) and every state. -/

open Sys2Proof Sys2Proof.Machine

/-! ### Encoding -/

/-- O1. Decoding an encoded well-formed instruction gives it back, at every operand value (30_encoding.md R60 to R65). -/
def Obligations.DecodeOfEncodeIsInstruction : Prop :=
  ∀ i : Instr, i.wf = true → decode (encode i) = .ok i

/-- O2. A command word that decodes is the encoding of what it decodes to (30_encoding.md R60 to R62): no bit of it is
ignored, the operand of RDFREQ included (R141 latches it). -/
def Obligations.EncodeOfDecodedCommandIsWord : Prop :=
  ∀ (cw : BitVec 36) (i : Instr), decode (.cmd cw) = .ok i → encode i = .cmd cw

/-- O3. A descriptor decodes to no instruction exactly when its kind is 0x9 to 0xF, or its register is 3 and its kind uses
a register; the sequencer then refuses it (30_encoding.md R64, R65; 93 U8; log 17). A DELAY descriptor, whose kind uses
no field, decodes whatever its register field holds, 3 included: the model's reading (log 16, DEDUCED between R73 and
93 U8). -/
def Obligations.ReservedDescriptorsAreRefused : Prop :=
  ∀ d : BitVec 25,
    ((∀ i, decode (.mop d) ≠ .ok i) ↔ (9 ≤ (mdKind d).toNat ∨ (mdKind d ≠ kDelay ∧ mdReg d = 3#2))) ∧
    ∀ (s : State) (rest : List FetchWord), SequencerMoves s → s.md = none → s.st = .sIdle → s.port = .mop d :: rest →
      (∀ i, decode (.mop d) ≠ .ok i) → step s = .refused .reservedDescriptor

/-- O4. Words of spec/95_test_vectors.md decode to what they stand for: P1, RF's junk operand, S1, L1, and M1 to M13. -/
def Obligations.WorkedWordsDecode : Prop :=
  decode (.cmd 0x12F34F600#36) = .ok (.setfreq 792000000#32) ∧
  decode (.cmd 0x2DEADBEEF#36) = .ok (.rdfreq 0xDEADBEEF#32) ∧
  decode (.cmd 0x30012B128#36) = .ok (.setop 1225000#32) ∧
  decode (.cmd 0x40BCD3D80#36) = .ok (.lookup 198000000#32) ∧
  decode (.mop 0x0003F80#25) = .ok (.get .pll 0#5 0x7F#7) ∧
  decode (.mop 0x0080380#25) = .ok (.get .cdiv 0#5 0x7#7) ∧
  decode (.mop 0x0100F80#25) = .ok (.get .vtarg 0#5 0x1F#7) ∧
  decode (.mop 0x0638180#25) = .ok (.setfield .pll 14#5 0x3#7 0#7) ∧
  decode (.mop 0x0240080#25) = .ok (.set .pll 16#5) ∧
  decode (.mop 0x0603FC2#25) = .ok (.setfield .pll 0#5 0x7F#7 66#7) ∧
  decode (.mop 0x0440080#25) = .ok (.clear .pll 16#5) ∧
  decode (.mop 0x0680383#25) = .ok (.setfield .cdiv 0#5 0x7#7 3#7) ∧
  decode (.mop 0x0948F80#25) = .ok (.clearfield .vtarg 18#5 0x1F#7) ∧
  decode (.mop 0x0A7C081#25) = .ok (.waituntil .pll 31#5 1#7 1#7) ∧
  decode (.mop 0x0D00000#25) = .ok (.read .vtarg) ∧
  decode (.mop 0x0F00000#25) = .ok (.write .vtarg) ∧
  decode (.mop 0x1000000#25) = .ok .delay

/-! ### What a step runs -/

/-- O5. On the sequencer's turn the step is `exec` of the decoded instruction: the oldest word at the port of a resting
sequencer (taken off the port), the command CMD and ARG hold when one is in flight, the descriptor of a
micro-operation in flight; and with none of these the sequencer waits (44 R141, R165; log 6, 8, 10). -/
def Obligations.StepRunsDecodedInstruction : Prop :=
  ∀ s : State, SequencerMoves s →
    (s.md = none → s.st = .sIdle → ∀ cw rest i, s.port = .cmd cw :: rest → decode (.cmd cw) = .ok i →
      step s = exec i { s with sched := s.sched.tail, port := rest }) ∧
    (s.md = none → s.st = .sIdle → ∀ d rest i, s.port = .mop d :: rest → decode (.mop d) = .ok i →
      step s = exec i { s with sched := s.sched.tail, port := rest, md := some d, mphase := .first }) ∧
    (s.md = none → s.st ≠ .sIdle → ∀ i, decode (.cmd (cmdWord s.cmd s.arg)) = .ok i →
      step s = exec i { s with sched := s.sched.tail }) ∧
    (∀ d i, s.md = some d → decode (.mop d) = .ok i → step s = exec i { s with sched := s.sched.tail }) ∧
    (s.md = none → s.st = .sIdle → s.port = [] → step s = .next { s with sched := s.sched.tail })

/-- O6. A word accepted in S_IDLE is latched (44 R141); with a command in flight the words at the port are held. -/
def Obligations.CommandAcceptanceAndHold : Prop :=
  (∀ (s : State) (a : Word), s.st = .sIdle →
    exec (.setfreq a) s = .next { s with cmd := 0x1#4, arg := a, rdata := 0#32, st := .sEntry } ∧
    exec (.rdfreq a) s = .next { s with cmd := 0x2#4, arg := a, rdata := 0#32, st := .sEntry } ∧
    exec (.setop a) s = .next { s with cmd := 0x3#4, arg := a, rdata := 0#32, st := .sEntry } ∧
    exec (.lookup a) s = .next { s with cmd := 0x4#4, arg := a, rdata := 0#32, st := .sEntry }) ∧
  (∀ s t : State, SequencerMoves s → CommandInFlight s → step s = .next t → t.port = s.port) ∧
  (∀ s : State, SequencerMoves s → s.md = none → s.st = .sIdle → s.port = [] →
    step s = .next { s with sched := s.sched.tail })

/-! ### The sequencer's states, rule by rule -/

/-- O7. State S_ENTRY (44 R142), with `raise` of 60 R196: the dispatch, the family check for SETFREQ, SETOP and LOOKUP
and not for RDFREQ, IllegalCommand for every other opcode and before the family. -/
def Obligations.EntryDispatchesAndChecksFamily : Prop :=
  ∀ (i : Instr) (s : State), isCommand i = true → s.st = .sEntry →
    ((s.cmd = 0x1#4 ∨ s.cmd = 0x4#4) → s.family = s.cfg.fam0 → exec i s = .next { s with st := .sLookup }) ∧
    (s.cmd = 0x3#4 → s.family = s.cfg.fam0 →
      exec i s = .next { s with vUv := s.arg, vphase := .alone, st := .sVQuant }) ∧
    ((s.cmd = 0x1#4 ∨ s.cmd = 0x3#4 ∨ s.cmd = 0x4#4) → s.family ≠ s.cfg.fam0 →
      exec i s = .next { s with status := .unsupportedFamily, st := .sRespond }) ∧
    (s.cmd = 0x2#4 → exec i s = .next { s with st := .sRdDiv }) ∧
    (ReservedOpcode s.cmd → exec i s = .next { s with status := .illegalCommand, st := .sRespond })

/-- O8. State S_LOOKUP (44 R143) with an implemented family: an exact key match on 32 bits (41 R103), or
UnsupportedFrequency; LOOKUP answers with the packed row (30_encoding.md R68). -/
def Obligations.LookupStateResolvesExactKey : Prop :=
  ∀ (i : Instr) (s : State), isCommand i = true → s.st = .sLookup → s.family = s.cfg.fam0 → s.cfg.WF →
    ((∀ r ∈ s.cfg.table, r.key ≠ s.arg) →
      exec i s = .next { s with status := .unsupportedFrequency, st := .sRespond }) ∧
    (∀ r ∈ s.cfg.table, r.key = s.arg → s.cmd = 0x4#4 →
      ∃ data : Word,
        data.toNat = r.uv.toNat + r.div.toNat * 2 ^ 21 + r.podf.toNat * 2 ^ 28 ∧
        exec i s = .next { s with
          opDiv := r.div, opPodf := r.podf, opUv := r.uv, rdata := data, status := .ok, st := .sRespond }) ∧
    (∀ r ∈ s.cfg.table, r.key = s.arg → s.cmd ≠ 0x4#4 →
      exec i s = .next { s with opDiv := r.div, opPodf := r.podf, opUv := r.uv, st := .sRdDiv })

/-- O9. The reader's states (44 R144, R145): DIV_SELECT from PLL, then PODF from CDIV and the frequency
`((24,000,000 * d) / 2) / (p + 1)` of 42 R112, which fits 32 bits; for RDFREQ that is the response. -/
def Obligations.ReaderComputesFieldFrequency : Prop :=
  ∀ (i : Instr) (s : State), isCommand i = true → s.cfg.WF →
    (s.st = .sRdDiv →
      exec i s = .next { s with
        bus := s.bus ++ [.rd s.cfg.aPll (busValue .pll s)]
        rdDiv := field s.pll s.cfg.divOff s.cfg.divMask
        st := .sRdPodf }) ∧
    (s.st = .sRdPodf → s.cmd = 0x2#4 →
      ∃ hz : Word, hz.toNat = 24000000 * s.rdDiv.toNat / 2 /
          ((field s.cdiv s.cfg.podfOff s.cfg.podfMask).toNat + 1) ∧
        exec i s = .next { s with
          bus := s.bus ++ [.rd s.cfg.aCdiv s.cdiv]
          rdPodf := (field s.cdiv s.cfg.podfOff s.cfg.podfMask).setWidth 3
          curHz := hz, rdata := hz, status := .ok, st := .sRespond })

/-- O10. Compare and direction check, pre-raise (44 R146, R147), the tail of the S_RD_PODF step of SETFREQ: equal
frequencies end the command with OK; otherwise INC is the unsigned comparison, and an increase calls the controller
first. `hz` is the frequency the step computes. -/
def Obligations.CompareDirectionAndPreRaise : Prop :=
  ∀ (i : Instr) (s : State) (p : BitVec 3) (hz : Word), isCommand i = true → s.st = .sRdPodf → s.cmd = 0x1#4 →
    p = podfOf s.cfg s.cdiv → hz = freq s.rdDiv p →
    (hz = s.arg → exec i s = .next { s with
      bus := s.bus ++ [.rd s.cfg.aCdiv s.cdiv], rdPodf := p, curHz := hz, status := .ok, st := .sRespond }) ∧
    (hz.toNat < s.arg.toNat → exec i s = .next { s with
      bus := s.bus ++ [.rd s.cfg.aCdiv s.cdiv], rdPodf := p, curHz := hz, inc := true
      vUv := s.opUv, vphase := .pre, st := .sVQuant }) ∧
    (s.arg.toNat < hz.toNat → exec i s = .next { s with
      bus := s.bus ++ [.rd s.cfg.aCdiv s.cdiv], rdPodf := p, curHz := hz, inc := false, st := .sBypsrcRd })

/-- O11. The controller's states (43 R122 to R126): the quantised code, the comparison with the programmed core code, the
secondary code max(c, 18), and both targets changed by one write of the value read. -/
def Obligations.ControllerStatesWriteBothTargets : Prop :=
  ∀ (i : Instr) (s : State), isCommand i = true →
    (s.st = .sVQuant → exec i s = .next { s with vCore := quant s.vUv, st := .sVRdCur }) ∧
    (s.st = .sVRdCur → vcoreOf s.cfg s.vtarg ≠ s.vCore →
      ∃ soc : BitVec 5, soc.toNat = max s.vCore.toNat 18 ∧
        exec i s = .next { s with
          bus := s.bus ++ [.rd s.cfg.aVtarg s.vtarg]
          vOld := (field s.vtarg s.cfg.vcoreOff 0x1F#7).setWidth 5, vSoc := soc, st := .sVRmwRd }) ∧
    (s.st = .sVRmwRd → exec i s = .next { s with
      bus := s.bus ++ [.rd s.cfg.aVtarg s.vtarg], tmp := s.vtarg, st := .sVRmwWr }) ∧
    (s.st = .sVRmwWr → ∀ w : Word,
      w = insertField (insertField s.tmp s.cfg.vcoreOff 0x1F#7 (s.vCore.setWidth 7)) s.cfg.vsocOff 0x1F#7
        (s.vSoc.setWidth 7) →
      exec i s = .next { memWrite .vtarg w s with dly := s.cfg.settleTicks, st := .sVSettle })

/-- O12. The end of a controller call (43 R127, R128, R129): the settle countdown, the diagnostic event, and the return to
the caller VPHASE names, which is also the early return of R123 with nothing written and no event. -/
def Obligations.ControllerSettlesReportsAndReturns : Prop :=
  ∀ (i : Instr) (s : State), isCommand i = true →
    (s.st = .sVSettle → s.dly ≠ 0#32 → exec i s = .next { s with dly := s.dly - 1#32 }) ∧
    (s.st = .sVSettle → s.dly = 0#32 → exec i s = .next { s with st := .sVDiag }) ∧
    (s.st = .sVDiag → ∀ dg, dg = s.diag ++ [⟨s.vOld, s.vCore, s.vSoc, s.vUv⟩] →
      (s.vphase = .pre → exec i s = .next { s with diag := dg, vphase := .none, st := .sBypsrcRd }) ∧
      (s.vphase = .post ∨ s.vphase = .alone →
        exec i s = .next { s with diag := dg, vphase := .none, status := .ok, st := .sRespond })) ∧
    (s.st = .sVRdCur → vcoreOf s.cfg s.vtarg = s.vCore →
      ∀ b, b = s.bus ++ [.rd s.cfg.aVtarg s.vtarg] →
      (s.vphase = .pre →
        exec i s = .next { s with bus := b, vOld := s.vCore, vphase := .none, st := .sBypsrcRd }) ∧
      (s.vphase = .post ∨ s.vphase = .alone →
        exec i s = .next { s with bus := b, vOld := s.vCore, vphase := .none, status := .ok, st := .sRespond }))

/-- O13. The PLL states up to the lock wait (44 R148 to R153): three read-modify-writes of PLL, one transaction a step,
each write unconditional; POLLS is cleared only with a deadline. -/
def Obligations.PllProgrammingStates : Prop :=
  ∀ (i : Instr) (s : State), isCommand i = true →
    (∀ x y, (x, y) ∈ [(SeqState.sBypsrcRd, SeqState.sBypsrcWr), (.sBypsetRd, .sBypsetWr), (.sDivselRd, .sDivselWr)] →
      s.st = x → exec i s = .next { s with
        bus := s.bus ++ [.rd s.cfg.aPll (busValue .pll s)], tmp := busValue .pll s, st := y }) ∧
    (s.st = .sBypsrcWr → exec i s =
      .next { memWrite .pll (insertField s.tmp s.cfg.srcOff s.cfg.srcMask s.cfg.srcOsc) s with st := .sBypsetRd }) ∧
    (s.st = .sBypsetWr → exec i s =
      .next { memWrite .pll (s.tmp ||| (1#32 <<< s.cfg.bypBit.toNat)) s with st := .sDivselRd }) ∧
    (s.st = .sDivselWr → exec i s =
      .next { memWrite .pll (insertField s.tmp s.cfg.divOff s.cfg.divMask s.opDiv) s with
        polls := if s.cfg.lockDeadline = none then s.polls else 0#32
        st := .sWaitLock })

/-- O14. One lock poll (44 R154, R155): a read of PLL; LOCK = 1 leaves the state; LOCK = 0 stays, and with a deadline
counts the poll and raises HardwareTimeout after the n-th. -/
def Obligations.LockPollLeavesOnlyOnLockOrDeadline : Prop :=
  ∀ (i : Instr) (s : State) (b : List BusEvent), isCommand i = true → s.st = .sWaitLock →
    b = s.bus ++ [.rd s.cfg.aPll (busValue .pll s)] →
    (s.pllLock = true → exec i s = .next { s with bus := b, st := .sUnbypRd }) ∧
    (s.pllLock = false → s.cfg.lockDeadline = none → exec i s = .next { s with bus := b }) ∧
    (s.pllLock = false → ∀ n, s.cfg.lockDeadline = some n → ∀ k, k = s.polls + 1#32 →
      (k.toNat < n.toNat → exec i s = .next { s with bus := b, polls := k }) ∧
      (n.toNat ≤ k.toNat →
        exec i s = .next { s with bus := b, polls := k, status := .hardwareTimeout, st := .sRespond }))

/-- O15. Un-bypass, the post-divider commit, the post-lower decision and the response (44 R156 to R161). -/
def Obligations.UnbypassCommitPostAndRespond : Prop :=
  ∀ (i : Instr) (s : State), isCommand i = true →
    (s.st = .sUnbypRd → exec i s = .next { s with
      bus := s.bus ++ [.rd s.cfg.aPll (busValue .pll s)], tmp := busValue .pll s, st := .sUnbypWr }) ∧
    (s.st = .sUnbypWr → exec i s =
      .next { memWrite .pll (s.tmp &&& ~~~ (1#32 <<< s.cfg.bypBit.toNat)) s with st := .sPodfRd }) ∧
    (s.st = .sPodfRd → exec i s = .next { s with
      bus := s.bus ++ [.rd s.cfg.aCdiv s.cdiv], tmp := s.cdiv, st := .sPodfWr }) ∧
    (s.st = .sPodfWr → ∀ w, w = insertField s.tmp s.cfg.podfOff s.cfg.podfMask (s.opPodf.setWidth 7) →
      exec i s = .next { s with cdiv := w, bus := s.bus ++ [.wr s.cfg.aCdiv w], st := .sPost }) ∧
    (s.st = .sPost → s.inc = false →
      exec i s = .next { s with vUv := s.opUv, vphase := .post, st := .sVQuant }) ∧
    (s.st = .sPost → s.inc = true → exec i s = .next { s with status := .ok, st := .sRespond }) ∧
    (s.st = .sRespond → exec i s = .next { s with
      rsp := s.rsp ++ [⟨s.status, s.rdata⟩], rspOut := s.rspOut ++ [⟨s.status, s.rdata⟩], cmd := 0#4, st := .sIdle })

/-! ### Whole commands -/

/-- O16. LOOKUP as a whole (41 R100): four steps to the packed row, or to UnsupportedFrequency, three to
UnsupportedFamily; no bus transaction, and nothing but the named latches and the response changes. -/
def Obligations.LookupCommandAnswersPackedRow : Prop :=
  ∀ (s : State) (hz : Word), s.st = .sIdle → s.cmd = 0#4 → s.cfg.WF →
    (s.family = s.cfg.fam0 → ∀ r ∈ s.cfg.table, r.key = hz →
      ∃ data : Word, data.toNat = r.uv.toNat + r.div.toNat * 2 ^ 21 + r.podf.toNat * 2 ^ 28 ∧
        execTimes (.lookup hz) 4 s = .next { s with
          arg := hz, opDiv := r.div, opPodf := r.podf, opUv := r.uv, rdata := data, status := .ok
          rsp := s.rsp ++ [⟨.ok, data⟩], rspOut := s.rspOut ++ [⟨.ok, data⟩] }) ∧
    (s.family = s.cfg.fam0 → (∀ r ∈ s.cfg.table, r.key ≠ hz) →
      execTimes (.lookup hz) 4 s = .next { s with
        arg := hz, rdata := 0#32, status := .unsupportedFrequency
        rsp := s.rsp ++ [⟨.unsupportedFrequency, 0#32⟩], rspOut := s.rspOut ++ [⟨.unsupportedFrequency, 0#32⟩] }) ∧
    (s.family ≠ s.cfg.fam0 →
      execTimes (.lookup hz) 3 s = .next { s with
        arg := hz, rdata := 0#32, status := .unsupportedFamily
        rsp := s.rsp ++ [⟨.unsupportedFamily, 0#32⟩], rspOut := s.rspOut ++ [⟨.unsupportedFamily, 0#32⟩] })

/-- O17. RDFREQ as a whole (42 R110): five steps, two reads in the order PLL, CDIV, no write, whatever the operand and the
family; the response is the frequency of the two fields. -/
def Obligations.RdfreqCommandAnswersFieldFrequency : Prop :=
  ∀ (s : State) (x : Word), s.st = .sIdle → s.cmd = 0#4 → s.cfg.WF →
    ∃ hz : Word,
      hz.toNat = 24000000 * (field s.pll s.cfg.divOff s.cfg.divMask).toNat / 2 /
        ((field s.cdiv s.cfg.podfOff s.cfg.podfMask).toNat + 1) ∧
      execTimes (.rdfreq x) 5 s = .next { s with
        arg := x
        bus := s.bus ++ [.rd s.cfg.aPll (busValue .pll s), .rd s.cfg.aCdiv s.cdiv]
        rdDiv := field s.pll s.cfg.divOff s.cfg.divMask
        rdPodf := (field s.cdiv s.cfg.podfOff s.cfg.podfMask).setWidth 3
        curHz := hz, rdata := hz, status := .ok
        rsp := s.rsp ++ [⟨.ok, hz⟩], rspOut := s.rspOut ++ [⟨.ok, hz⟩] }

/-- O18. SETOP as a whole (43 R120): UnsupportedFamily in three steps; with the core code already programmed one read and
OK in five steps; otherwise read, read, one write of both targets, SETTLE_TICKS + 1 settle steps, the diagnostic event
and OK. The secondary code written is max(core, 18). -/
def Obligations.SetopCommandProgramsBothRails : Prop :=
  ∀ (s : State) (uv : Word), s.st = .sIdle → s.cmd = 0#4 → s.vphase = .none →
    (s.family ≠ s.cfg.fam0 →
      execTimes (.setop uv) 3 s = .next { s with
        arg := uv, rdata := 0#32, status := .unsupportedFamily
        rsp := s.rsp ++ [⟨.unsupportedFamily, 0#32⟩], rspOut := s.rspOut ++ [⟨.unsupportedFamily, 0#32⟩] }) ∧
    (s.family = s.cfg.fam0 → vcoreOf s.cfg s.vtarg = quant uv →
      execTimes (.setop uv) 5 s = .next { s with
        arg := uv, vUv := uv, vCore := quant uv, vOld := quant uv, rdata := 0#32, status := .ok
        bus := s.bus ++ [.rd s.cfg.aVtarg s.vtarg]
        rsp := s.rsp ++ [⟨.ok, 0#32⟩], rspOut := s.rspOut ++ [⟨.ok, 0#32⟩] }) ∧
    (s.family = s.cfg.fam0 → vcoreOf s.cfg s.vtarg ≠ quant uv →
      ∃ (soc : BitVec 5) (w : Word), soc.toNat = max (quant uv).toNat 18 ∧
        w = withTargets s.cfg s.vtarg (quant uv) soc ∧
        execTimes (.setop uv) (s.cfg.settleTicks.toNat + 9) s = .next { storeReg .vtarg w s with
          arg := uv, vUv := uv, vCore := quant uv, vOld := vcoreOf s.cfg s.vtarg, vSoc := soc
          tmp := s.vtarg, dly := 0#32, rdata := 0#32, status := .ok
          bus := s.bus ++ [.rd s.cfg.aVtarg s.vtarg, .rd s.cfg.aVtarg s.vtarg, .wr s.cfg.aVtarg w]
          diag := s.diag ++ [⟨vcoreOf s.cfg s.vtarg, quant uv, soc, uv⟩]
          rsp := s.rsp ++ [⟨.ok, 0#32⟩], rspOut := s.rspOut ++ [⟨.ok, 0#32⟩] })

/-- O19. The exits of SETFREQ that write nothing (60 R191, R192, R197; 44 R146, R164): UnsupportedFamily before the table,
UnsupportedFrequency before any read, and OK after two reads when the fields already give the target. -/
def Obligations.SetfreqExitsWithoutWriting : Prop :=
  ∀ (s : State) (hz : Word), s.st = .sIdle → s.cmd = 0#4 → s.cfg.WF →
    (s.family ≠ s.cfg.fam0 →
      execTimes (.setfreq hz) 3 s = .next { s with
        arg := hz, rdata := 0#32, status := .unsupportedFamily
        rsp := s.rsp ++ [⟨.unsupportedFamily, 0#32⟩], rspOut := s.rspOut ++ [⟨.unsupportedFamily, 0#32⟩] }) ∧
    (s.family = s.cfg.fam0 → (∀ r ∈ s.cfg.table, r.key ≠ hz) →
      execTimes (.setfreq hz) 4 s = .next { s with
        arg := hz, rdata := 0#32, status := .unsupportedFrequency
        rsp := s.rsp ++ [⟨.unsupportedFrequency, 0#32⟩], rspOut := s.rspOut ++ [⟨.unsupportedFrequency, 0#32⟩] }) ∧
    (s.family = s.cfg.fam0 → ∀ r ∈ s.cfg.table, r.key = hz → fieldsHz s = hz →
      execTimes (.setfreq hz) 6 s = .next { s with
        arg := hz, opDiv := r.div, opPodf := r.podf, opUv := r.uv
        bus := s.bus ++ [.rd s.cfg.aPll (busValue .pll s), .rd s.cfg.aCdiv s.cdiv]
        rdDiv := divOf s.cfg s.pll, rdPodf := podfOf s.cfg s.cdiv, curHz := hz
        rdata := 0#32, status := .ok
        rsp := s.rsp ++ [⟨.ok, 0#32⟩], rspOut := s.rspOut ++ [⟨.ok, 0#32⟩] })

/-- O20. A frequency-changing SETFREQ completes if the PLL locks (44 R140, R163; 45 R173; 70 R225, R226, R239 P8). From
rest it reaches the lock wait with the core bypassed onto the oscillator, the new divider programmed, the post-divider
untouched and, for an increase, the core-rail target already the new one; once the PLL has taken its lock step it goes
on to S_IDLE with exactly one response OK, un-bypassed, both dividers and the core-rail code those of the operating
point, and no foreign bit changed. The transactions are exactly those of R163, in its order, with `k = 1` poll (O21
adds failed ones): the VTARG write comes before the first PLL write when increasing, after the CDIV write when
decreasing, and only if the code differs. -/
def Obligations.SetfreqCompletesOnceLocked : Prop :=
  ∀ (s : State) (hz : Word), s.st = .sIdle → s.cmd = 0#4 → s.vphase = .none → s.cfg.WF →
    pllStored s.cfg s.pll = s.pll → s.family = s.cfg.fam0 → ∀ r ∈ s.cfg.table, r.key = hz → fieldsHz s ≠ hz →
    ∀ call : List (Bool × Word),
      call = (false, s.cfg.aVtarg) ::
        (if vcoreOf s.cfg s.vtarg = quant r.uv then [] else [(false, s.cfg.aVtarg), (true, s.cfg.aVtarg)]) →
    ∃ (n : Nat) (w : State), execTimes (.setfreq hz) n s = .next w ∧
      w.st = .sWaitLock ∧ Insulated w ∧ divOf w.cfg w.pll = r.div ∧ w.cdiv = s.cdiv ∧ w.rsp = s.rsp ∧
      ((fieldsHz s).toNat < hz.toNat → vcoreOf w.cfg w.vtarg = quant r.uv) ∧
      (hz.toNat < (fieldsHz s).toNat → w.vtarg = s.vtarg) ∧
      ∃ (m : Nat) (t : State), execTimes (.setfreq hz) m (pllLocks w) = .next t ∧
        t.st = .sIdle ∧ t.cmd = 0#4 ∧ t.vphase = .none ∧ t.rsp = s.rsp ++ [⟨.ok, 0#32⟩] ∧
        t.pllLock = true ∧ bypOf t.cfg t.pll = false ∧ srcOf t.cfg t.pll = t.cfg.srcOsc ∧
        divOf t.cfg t.pll = r.div ∧ podfOf t.cfg t.cdiv = r.podf ∧ fieldsHz t = hz ∧
        vcoreOf t.cfg t.vtarg = quant r.uv ∧ t.cfg = s.cfg ∧ t.family = s.family ∧ t.port = s.port ∧
        (∀ j, (fieldBits s.cfg.divOff s.cfg.divMask).getLsbD j = false →
          (fieldBits s.cfg.srcOff s.cfg.srcMask).getLsbD j = false → j ≠ s.cfg.bypBit.toNat →
          t.pll.getLsbD j = s.pll.getLsbD j) ∧
        (∀ j, (fieldBits s.cfg.podfOff s.cfg.podfMask).getLsbD j = false → t.cdiv.getLsbD j = s.cdiv.getLsbD j) ∧
        (∀ j, (fieldBits s.cfg.vcoreOff 0x1F#7).getLsbD j = false →
          (fieldBits s.cfg.vsocOff 0x1F#7).getLsbD j = false → t.vtarg.getLsbD j = s.vtarg.getLsbD j) ∧
        shapeOf t.bus = shapeOf s.bus ++ [(false, s.cfg.aPll), (false, s.cfg.aCdiv)] ++
          (if (fieldsHz s).toNat < hz.toNat then call else []) ++
          [(false, s.cfg.aPll), (true, s.cfg.aPll), (false, s.cfg.aPll), (true, s.cfg.aPll),
           (false, s.cfg.aPll), (true, s.cfg.aPll), (false, s.cfg.aPll), (false, s.cfg.aPll), (true, s.cfg.aPll),
           (false, s.cfg.aCdiv), (true, s.cfg.aCdiv)] ++
          (if hz.toNat < (fieldsHz s).toNat then call else [])

/-- O21. The hang (60 R195; 93 U1): without a deadline, a PLL that does not lock keeps the command polling for any number
of steps, one read of PLL each, and nothing else changes. -/
def Obligations.UnlockedPllPollsForEver : Prop :=
  ∀ (s : State) (hz : Word) (n : Nat), s.st = .sWaitLock → s.pllLock = false → s.cfg.lockDeadline = none →
    execTimes (.setfreq hz) n s =
      .next { s with bus := s.bus ++ List.replicate n (.rd s.cfg.aPll (busValue .pll s)) }

/-- O22. The bounded wait (44 R155; 60 R194): with LOCK_DEADLINE = some n, entering the wait with POLLS = 0, exactly n
failed polls raise HardwareTimeout; the three registers are left as they are. -/
def Obligations.DeadlineRaisesTimeoutAfterNPolls : Prop :=
  ∀ (s : State) (hz n : Word), s.st = .sWaitLock → s.pllLock = false → s.cfg.lockDeadline = some n → 1 ≤ n.toNat →
    s.polls = 0#32 →
    execTimes (.setfreq hz) n.toNat s =
      .next { s with
        bus := s.bus ++ List.replicate n.toNat (.rd s.cfg.aPll (busValue .pll s))
        polls := n, status := .hardwareTimeout, st := .sRespond }

/-- O23. A reserved opcode (30_encoding.md R63) is no instruction, and the command is accepted and answered with
IllegalCommand in three steps, whatever the family, with no bus transaction. -/
def Obligations.ReservedOpcodeAnswersIllegalCommand : Prop :=
  ∀ (s : State) (cw : BitVec 36) (rest : List FetchWord), s.sched = [] → s.md = none → s.st = .sIdle → s.cmd = 0#4 →
    s.port = .cmd cw :: rest → ReservedOpcode (cwOp cw) →
    (∀ i, decode (.cmd cw) ≠ .ok i) ∧
    ∃ t u, step s = .next t ∧ step t = .next u ∧ step u = .next { s with
      port := rest, arg := cwArg cw, rdata := 0#32, status := .illegalCommand
      rsp := s.rsp ++ [⟨.illegalCommand, 0#32⟩], rspOut := s.rspOut ++ [⟨.illegalCommand, 0#32⟩] }

/-- O24. Idempotence of SETOP (43 R130 (b)): after a SETOP, a second one with a voltage of the same code performs no write
and leaves VTARG alone. -/
def Obligations.SecondSetopOfSameCodeWritesNothing : Prop :=
  ∀ (s : State) (uv uv' : Word), s.st = .sIdle → s.cmd = 0#4 → s.vphase = .none → s.cfg.WF → s.family = s.cfg.fam0 →
    quant uv' = quant uv →
    ∃ (n : Nat) (t u : State), execTimes (.setop uv) n s = .next t ∧ t.st = .sIdle ∧
      execTimes (.setop uv') 5 t = .next u ∧ u.st = .sIdle ∧
      u.rsp = s.rsp ++ [⟨.ok, 0#32⟩, ⟨.ok, 0#32⟩] ∧ vcoreOf u.cfg u.vtarg = quant uv ∧
      u.vtarg = t.vtarg ∧ writesOf u.bus = writesOf t.bus

/-! ### Micro-operations -/

/-- O25. GET and READ (40 R80, R86): one read; GET's result is the field, READ fills TMP; no write. -/
def Obligations.GetAndReadMicroOperations : Prop :=
  ∀ (s : State) (r : Reg),
    (∀ (off : BitVec 5) (mask : BitVec 7), exec (.get r off mask) s = .next { s with
      bus := s.bus ++ [.rd (addrOf s.cfg r) (busValue r s)]
      mopResult := (busValue r s >>> off.toNat).setWidth 7 &&& mask
      md := none, mphase := .first }) ∧
    exec (.read r) s = .next { s with
      bus := s.bus ++ [.rd (addrOf s.cfg r) (busValue r s)], tmp := busValue r s, md := none, mphase := .first }

/-- O26. SET, CLEAR, SETFIELD and CLEARFIELD (40 R81 to R84): a read of the register into TMP, then, in the next step, one
unconditional write of the modified value; no other effect. -/
def Obligations.ReadModifyWriteMicroOperations : Prop :=
  ∀ (s : State) (r : Reg) (i : Instr) (f : Word → Word), s.mphase = .first →
    ((∃ b, i = .set r b ∧ f = fun w => w ||| (1#32 <<< b.toNat)) ∨
     (∃ b, i = .clear r b ∧ f = fun w => w &&& ~~~ (1#32 <<< b.toNat)) ∨
     (∃ off mask val, i = .setfield r off mask val ∧
       f = fun w => (w &&& ~~~ (mask.setWidth 32 <<< off.toNat)) ||| ((val &&& mask).setWidth 32 <<< off.toNat)) ∨
     (∃ off mask, i = .clearfield r off mask ∧ f = fun w => w &&& ~~~ (mask.setWidth 32 <<< off.toNat))) →
    ∃ m : State,
      exec i s = .next m ∧
      m = { s with
        bus := s.bus ++ [.rd (addrOf s.cfg r) (busValue r s)], tmp := busValue r s, mphase := .second } ∧
      exec i m = .next { memWrite r (f (busValue r s)) m with md := none, mphase := .first }

/-- O27. WAITUNTIL (40 R85): one read a step; it is over exactly at the first read that shows the expected value, and
until then only the bus trace grows. -/
def Obligations.WaituntilPollsUntilFieldHolds : Prop :=
  ∀ (s : State) (r : Reg) (off : BitVec 5) (mask val : BitVec 7),
    (((busValue r s >>> off.toNat).setWidth 7 &&& mask) = (val &&& mask) →
      exec (.waituntil r off mask val) s = .next { s with
        bus := s.bus ++ [.rd (addrOf s.cfg r) (busValue r s)], md := none, mphase := .first }) ∧
    (((busValue r s >>> off.toNat).setWidth 7 &&& mask) ≠ (val &&& mask) →
      ∀ n, execTimes (.waituntil r off mask val) n s = .next { s with
        bus := s.bus ++ List.replicate n (.rd (addrOf s.cfg r) (busValue r s)) })

/-- O28. WRITE (40 R87): one write. Of VTARG: the value of its one invoking rule R126. Of PLL and CDIV the spec gives no
value, so it is a free one (log 12) and only the fact of the write is stated. -/
def Obligations.WriteMicroOperation : Prop :=
  ∀ s : State,
    exec (.write .vtarg) s = .next { memWrite .vtarg
      (insertField (insertField s.tmp s.cfg.vcoreOff 0x1F#7 (s.vCore.setWidth 7)) s.cfg.vsocOff 0x1F#7
        (s.vSoc.setWidth 7)) s with md := none, mphase := .first } ∧
    ∀ r, r ≠ .vtarg → ∃ (w : Word) (c : Nat),
      exec (.write r) s = .next { memWrite r w s with md := none, mphase := .first, freeCtr := c }

/-- O29. DELAY (40 R88): loaded with SETTLE_TICKS it ends after exactly that many decrements (one step loads it, one finds
it at 0), with no bus transaction. -/
def Obligations.DelayCountsSettleTicks : Prop :=
  ∀ s : State, s.mphase = .first →
    (∀ n, n ≤ s.cfg.settleTicks.toNat → execTimes .delay (n + 1) s =
      .next { s with dly := s.cfg.settleTicks - BitVec.ofNat 32 n, mphase := .second }) ∧
    execTimes .delay (s.cfg.settleTicks.toNat + 2) s = .next { s with dly := 0#32, md := none, mphase := .first }

/-- O30. The equalities of 30_encoding.md R71: SET is SETFIELD of a one-bit field to 1, CLEAR is SETFIELD to 0, CLEARFIELD
is SETFIELD of 0, transaction for transaction (the whole run of two steps is the same). -/
def Obligations.SetClearAreSetfields : Prop :=
  ∀ (s : State) (r : Reg) (b off : BitVec 5) (mask : BitVec 7), s.mphase = .first →
    execTimes (.set r b) 2 s = execTimes (.setfield r b 1#7 1#7) 2 s ∧
    execTimes (.clear r b) 2 s = execTimes (.setfield r b 1#7 0#7) 2 s ∧
    execTimes (.clearfield r off mask) 2 s = execTimes (.setfield r off mask 0#7) 2 s

/-- O31. A whole SETFIELD reads back (40 R83, R90): with a field that fits, and for PLL one that does not hold LOCK, the
field holds `val & mask` afterwards, every other stored bit of the register is unchanged, and so are the other two
registers. -/
def Obligations.SetfieldReadsBackAndKeepsOtherBits : Prop :=
  ∀ (s t : State) (r : Reg) (off : BitVec 5) (mask val : BitVec 7), s.mphase = .first →
    (Instr.setfield r off mask val).wf = true →
    (r = .pll → (fieldBits off mask).getLsbD s.cfg.lockBit.toNat = false) →
    execTimes (.setfield r off mask val) 2 s = .next t →
    (busValue r t >>> off.toNat).setWidth 7 &&& mask = val &&& mask ∧
    (∀ j, (fieldBits off mask).getLsbD j = false → (r = .pll → j ≠ s.cfg.lockBit.toNat) →
      (busValue r t).getLsbD j = (busValue r s).getLsbD j) ∧
    (∀ r', r' ≠ r → busValue r' t = busValue r' s)

/-- O32. The sequencer's read/write state pairs are the micro-operation instances the spec names (40 R81 to R83; 44 R148
to R153, R156 to R159): two steps of the pair do to the registers, the lock, TMP and the bus trace what the two steps
of the micro-operation do. -/
def Obligations.StatePairsAreMicroOperations : Prop :=
  ∀ (hz : Word) (x : SeqState) (i : Instr) (s t u : State),
    ((x = .sBypsrcRd ∧ i = .setfield .pll s.cfg.srcOff s.cfg.srcMask s.cfg.srcOsc) ∨
     (x = .sBypsetRd ∧ i = .set .pll s.cfg.bypBit) ∨
     (x = .sDivselRd ∧ i = .setfield .pll s.cfg.divOff s.cfg.divMask s.opDiv) ∨
     (x = .sUnbypRd ∧ i = .clear .pll s.cfg.bypBit) ∨
     (x = .sPodfRd ∧ i = .setfield .cdiv s.cfg.podfOff s.cfg.podfMask (s.opPodf.setWidth 7))) →
    s.st = x → s.mphase = .first →
    execTimes (.setfreq hz) 2 s = .next t → execTimes i 2 s = .next u →
    t.bus = u.bus ∧ t.pll = u.pll ∧ t.pllLock = u.pllLock ∧ t.cdiv = u.cdiv ∧ t.vtarg = u.vtarg ∧ t.tmp = u.tmp

/-- O33. The frame of the micro-operations (40 R89): a step of any of them answers a next state in which the sequencer's
state register and latches other than TMP and DLY, the flag, the strap, the parameters, the ports and the response and
diagnostic traces are unchanged; at most one bus event is added; GET, WAITUNTIL, READ and DELAY change no register; and
every register other than the instruction's register operand reads and stores as before (R89 (c)), its hidden bit with
it. Only DELAY changes DLY, and GET, WAITUNTIL, WRITE and DELAY leave TMP. -/
def Obligations.MicroOperationFrame : Prop :=
  ∀ (i : Instr) (s : State), isCommand i = false →
    ∃ t, exec i s = .next t ∧
      t.st = s.st ∧ t.cmd = s.cmd ∧ t.arg = s.arg ∧ t.opDiv = s.opDiv ∧ t.opPodf = s.opPodf ∧ t.opUv = s.opUv ∧
      t.rdDiv = s.rdDiv ∧ t.rdPodf = s.rdPodf ∧ t.curHz = s.curHz ∧ t.inc = s.inc ∧ t.vphase = s.vphase ∧
      t.vUv = s.vUv ∧ t.vCore = s.vCore ∧ t.vOld = s.vOld ∧ t.vSoc = s.vSoc ∧ t.polls = s.polls ∧
      t.status = s.status ∧ t.rdata = s.rdata ∧ t.family = s.family ∧ t.cfg = s.cfg ∧ t.port = s.port ∧
      t.sched = s.sched ∧ t.rsp = s.rsp ∧ t.rspOut = s.rspOut ∧ t.diag = s.diag ∧
      (t.bus = s.bus ∨ ∃ e, t.bus = s.bus ++ [e]) ∧
      (((∃ r o m, i = .get r o m) ∨ (∃ r o m v, i = .waituntil r o m v) ∨ (∃ r, i = .read r) ∨ i = .delay) →
        t.pll = s.pll ∧ t.pllLock = s.pllLock ∧ t.cdiv = s.cdiv ∧ t.vtarg = s.vtarg ∧ t.railSettled = s.railSettled ∧
        writesOf t.bus = writesOf s.bus) ∧
      (∀ r', targetOf i ≠ some r' → busValue r' t = busValue r' s) ∧
      (targetOf i ≠ some .pll → t.pll = s.pll ∧ t.pllLock = s.pllLock) ∧
      (targetOf i ≠ some .cdiv → t.cdiv = s.cdiv) ∧
      (targetOf i ≠ some .vtarg → t.vtarg = s.vtarg ∧ t.railSettled = s.railSettled) ∧
      (i ≠ .delay → t.dly = s.dly) ∧
      (((∃ r o m, i = .get r o m) ∨ (∃ r o m v, i = .waituntil r o m v) ∨ (∃ r, i = .write r) ∨ i = .delay) →
        t.tmp = s.tmp)

/-! ### The bus and the agents that own the registers -/

/-- O34. PLL on the bus (45 R171, R172; 20_memory.md R51): a read returns the stored bits with bit LOCK replaced by
`pll_lock`; a write stores every bit but LOCK, drops lock exactly when DIV_SELECT changes, and touches no other
register. -/
def Obligations.PllReadsLockAndWritesDropIt : Prop :=
  ∀ (s : State) (w : Word), s.cfg.WF →
    (∀ j, j < 32 → (busValue .pll s).getLsbD j = if j = s.cfg.lockBit.toNat then s.pllLock else s.pll.getLsbD j) ∧
    (∀ j, j ≠ s.cfg.lockBit.toNat → (memWrite .pll w s).pll.getLsbD j = w.getLsbD j) ∧
    (divOf s.cfg w ≠ divOf s.cfg s.pll → (memWrite .pll w s).pllLock = false) ∧
    (divOf s.cfg w = divOf s.cfg s.pll → (memWrite .pll w s).pllLock = s.pllLock) ∧
    (memWrite .pll w s).cdiv = s.cdiv ∧ (memWrite .pll w s).vtarg = s.vtarg ∧
    (memWrite .pll w s).railSettled = s.railSettled ∧ (memWrite .pll w s).bus = s.bus ++ [.wr s.cfg.aPll w]

/-- O35. CDIV and VTARG on the bus (45 R177, R178): reads return the stored bits, writes replace all 32, and a VTARG write
starts a ramp exactly when a target field changes. -/
def Obligations.CdivAndVtargStoreWhatIsWritten : Prop :=
  ∀ (s : State) (w : Word),
    busValue .cdiv s = s.cdiv ∧ busValue .vtarg s = s.vtarg ∧
    memWrite .cdiv w s = { s with cdiv := w, bus := s.bus ++ [.wr s.cfg.aCdiv w] } ∧
    ((vcoreOf s.cfg w ≠ vcoreOf s.cfg s.vtarg ∨ vsocOf s.cfg w ≠ vsocOf s.cfg s.vtarg) →
      memWrite .vtarg w s = { s with vtarg := w, railSettled := false, bus := s.bus ++ [.wr s.cfg.aVtarg w] }) ∧
    ((vcoreOf s.cfg w = vcoreOf s.cfg s.vtarg ∧ vsocOf s.cfg w = vsocOf s.cfg s.vtarg) →
      memWrite .vtarg w s = { s with vtarg := w, bus := s.bus ++ [.wr s.cfg.aVtarg w] })

/-- O36. Lock is lost only by a PLL write that changes DIV_SELECT, or by the PLL's own drop where PLL_MAY_DROP_LOCK allows
it; it is gained only by the PLL's own step (45 R172, R173, R174). -/
def Obligations.LockChangesOnlyAsThePllDoes : Prop :=
  ∀ s t : State, s.cfg.WF → step s = .next t →
    (s.pllLock = true → t.pllLock = false →
      divOf s.cfg t.pll ≠ divOf s.cfg s.pll ∨
      (s.cfg.pllMayDropLock = true ∧ ∃ rest, s.sched = .pllDropsLock :: rest)) ∧
    (s.pllLock = false → t.pllLock = true → ∃ rest, s.sched = .pllLocks :: rest)

/-- O37. The rails become unsettled only by a write that changes a target, and settle only by the regulator's own step
(45 R178, R179). -/
def Obligations.RailsChangeOnlyAsTheRegulatorDoes : Prop :=
  ∀ s t : State, step s = .next t →
    (s.railSettled = true → t.railSettled = false →
      vcoreOf s.cfg t.vtarg ≠ vcoreOf s.cfg s.vtarg ∨ vsocOf s.cfg t.vtarg ≠ vsocOf s.cfg s.vtarg) ∧
    (s.railSettled = false → t.railSettled = true → ∃ rest, s.sched = .railsSettle :: rest)

/-- O38. A step performs at most one bus transaction, on one of the three addresses (00_scope.md R8; 20_memory.md R44,
R52), and the registers change only with a write event. -/
def Obligations.AtMostOneTransactionPerStep : Prop :=
  ∀ s t : State, step s = .next t →
    (t.bus = s.bus ∧ t.pll = s.pll ∧ t.cdiv = s.cdiv ∧ t.vtarg = s.vtarg) ∨
    (∃ r, t.bus = s.bus ++ [.rd (addrOf s.cfg r) (busValue r s)] ∧ t.pll = s.pll ∧ t.cdiv = s.cdiv ∧
      t.vtarg = s.vtarg) ∨
    (∃ r w, t.bus = s.bus ++ [.wr (addrOf s.cfg r) w] ∧ (r ≠ .pll → t.pll = s.pll) ∧ (r ≠ .cdiv → t.cdiv = s.cdiv) ∧
      (r ≠ .vtarg → t.vtarg = s.vtarg))

/-- O39. The reset event (70 R220) at rest forces ST, CMD and VPHASE and touches no register, strap, port, trace or
parameter; in flight it is refused (R223), and so is a foreign write (93 U3). (What the other latches hold after reset
is the model's choice, log 3, and is not stated.) -/
def Obligations.ResetEventAndRefusedInputs : Prop :=
  ∀ (s : State) (rest : List Move),
    (s.sched = .resetAsserted :: rest → s.st = .sIdle → s.md = none → ∃ t, step s = .next t ∧
      t.st = .sIdle ∧ t.cmd = 0#4 ∧ t.vphase = .none ∧ t.pll = s.pll ∧ t.pllLock = s.pllLock ∧ t.cdiv = s.cdiv ∧
      t.vtarg = s.vtarg ∧ t.railSettled = s.railSettled ∧ t.family = s.family ∧ t.bus = s.bus ∧ t.rsp = s.rsp ∧
      t.diag = s.diag ∧ t.port = s.port ∧ t.cfg = s.cfg) ∧
    (s.sched = .resetAsserted :: rest → CommandInFlight s ∨ s.md ≠ none → step s = .refused .resetInFlight) ∧
    (∀ r w, s.sched = .foreignWrite r w :: rest → step s = .refused .foreignWriter)

/-! ### Arithmetic -/

/-- O40. The quantiser (43 R121): its three branches, bounds exclusive, and it is non-decreasing. -/
def Obligations.QuantiserBranchesAndMonotone : Prop :=
  ∀ uv : Word,
    (uv.toNat < 725000 → (quant uv).toNat = 0) ∧
    (1450000 < uv.toNat → (quant uv).toNat = 31) ∧
    (725000 ≤ uv.toNat → uv.toNat ≤ 1450000 →
      (quant uv).toNat = (uv.toNat - 700000) / 25000 ∧ 1 ≤ (quant uv).toNat ∧ (quant uv).toNat ≤ 30) ∧
    ∀ uv' : Word, uv.toNat ≤ uv'.toNat → (quant uv).toNat ≤ (quant uv').toNat

/-- O41. What a VoltageCode stands for (45 R181) inverts the quantiser in its linear range, and a faster operating point
never has a lower core code (41 R105 through R121). -/
def Obligations.VoltageCodesInvertAndFollowFrequency : Prop :=
  (∀ c : BitVec 5, 1 ≤ c.toNat → c.toNat ≤ 30 →
    railTarget c = .microvolts (700000 + 25000 * c.toNat) ∧
    quant (BitVec.ofNat 32 (700000 + 25000 * c.toNat)) = c) ∧
  railTarget 0#5 = .notInSource ∧ railTarget 31#5 = .notInSource ∧
  ∀ (c : Params) (a b : Row), c.WF → a ∈ c.table → b ∈ c.table → a.key.toNat < b.key.toNat →
    (quant a.uv).toNat ≤ (quant b.uv).toNat

/-- O42. Field insertion and extraction (00_scope.md R8; 30_encoding.md R73) on every bit, and the read-back of a field that
fits. -/
def Obligations.FieldInsertionBitByBit : Prop :=
  ∀ (w : Word) (off : BitVec 5) (mask v : BitVec 7),
    (∀ j, j < 32 → (insertField w off mask v).getLsbD j =
      if off.toNat ≤ j ∧ mask.getLsbD (j - off.toNat) = true then v.getLsbD (j - off.toNat) else w.getLsbD j) ∧
    (∀ j, (field w off mask).getLsbD j = (w.getLsbD (off.toNat + j) && mask.getLsbD j)) ∧
    (fieldFits off mask = true → field (insertField w off mask v) off mask = v &&& mask)

/-- O43. The clock outputs (45 R175, R176). -/
def Obligations.ClockOutputs : Prop :=
  ∀ s : State,
    (bypOf s.cfg s.pll = true → srcOf s.cfg s.pll = s.cfg.srcOsc →
      fPllout s = .hz 24000000 ∧ fCore s = .hz (24000000 / ((podfOf s.cfg s.cdiv).toNat + 1))) ∧
    (bypOf s.cfg s.pll = true → srcOf s.cfg s.pll ≠ s.cfg.srcOsc → fPllout s = .unknown ∧ fCore s = .unknown) ∧
    (bypOf s.cfg s.pll = false → s.pllLock = true →
      fPllout s = .hz (24000000 * (divOf s.cfg s.pll).toNat / 2) ∧ fCore s = .hz (fieldsHz s).toNat) ∧
    (bypOf s.cfg s.pll = false → s.pllLock = false → fPllout s = .unstable ∧ fCore s = .unstable)

/-! ### Invariants and whole-machine rules -/

/-- O44. The coherence invariant holds at reset (with the model's launch values, log 2 to 5). -/
def Obligations.CoherenceAtReset : Prop := Inv State.reset

/-- O45. Every step of every agent keeps the coherence invariant, from every state that meets it. -/
def Obligations.EveryStepKeepsCoherence : Prop :=
  ∀ s t : State, Inv s → step s = .next t → Inv t

/-- O46. No step from a coherent state faults: `VPHASE = NONE` cannot occur at a return (43 R129), and the table is never
consulted for an unknown family (41 R101, R103). The only stops are the three refusals of outside inputs. -/
def Obligations.CoherentStatesNeverFault : Prop :=
  ∀ s : State, Inv s → (∃ t, step s = .next t) ∨
    (step s = .refused .reservedDescriptor ∧ ∃ d, s.md = some d ∨ ∃ rest, s.port = .mop d :: rest) ∨
    (step s = .refused .resetInFlight ∧ ∃ rest, s.sched = .resetAsserted :: rest) ∨
    (step s = .refused .foreignWriter ∧ ∃ r w rest, s.sched = .foreignWrite r w :: rest)

/-- O47. No step changes the parameters, the table among them, or the strap (10_state.md R15, R23; 41 R104). -/
def Obligations.TableAndStrapAreImmutable : Prop :=
  ∀ s t : State, step s = .next t → t.cfg = s.cfg ∧ t.family = s.family

/-- O48. A command's divider write happens only while the core is insulated: if a step of a command changes DIV_SELECT,
BYPASS is 1 with the oscillator as source before and after it (70 R227, R239 P4). -/
def Obligations.DividerChangesOnlyWhileBypassed : Prop :=
  ∀ s t : State, Inv s → CommandInFlight s → step s = .next t → divOf s.cfg t.pll ≠ divOf s.cfg s.pll →
    s.st = .sDivselWr ∧ Insulated s ∧ Insulated t

/-- O49. A command clears BYPASS only in S_UNBYP_WR, and with a PLL that keeps its lock it is locked then (70 R228). -/
def Obligations.UnbypassOnlyWhenLocked : Prop :=
  ∀ s t : State, Inv s → CommandInFlight s → step s = .next t → bypOf s.cfg s.pll = true → bypOf s.cfg t.pll = false →
    s.st = .sUnbypWr ∧ divOf s.cfg s.pll = s.opDiv ∧
      (s.cfg.pllMayDropLock = false → s.pllLock = true ∧ t.pllLock = true)

/-- O50. The core clock never becomes unstable through a command, a host, the regulator or a PLL that keeps its lock
(70 R239 P10), whichever agent moves, as long as no stand-alone micro-operation runs. -/
def Obligations.CoreClockStaysStable : Prop :=
  ∀ s t : State, Inv s → s.cfg.pllMayDropLock = false → s.md = none → (∀ w ∈ s.port, isCmdWord w = true) →
    step s = .next t → fCore s ≠ .unstable → fCore t ≠ .unstable

/-- O51. Voltage before frequency when scaling up (70 R225): when a step of an increasing SETFREQ changes PLL or CDIV, the
core-rail target already is that of the new operating point. -/
def Obligations.IncreaseRaisesVoltageFirst : Prop :=
  ∀ s t : State, Inv s → CommandInFlight s → s.cmd = opSetfreq → s.inc = true → step s = .next t →
    (t.pll ≠ s.pll ∨ t.cdiv ≠ s.cdiv) →
    vcoreOf s.cfg s.vtarg = quant s.opUv ∧ t.vtarg = s.vtarg ∧
      ∃ r ∈ s.cfg.table, r.key = s.arg ∧ r.uv = s.opUv

/-- O52. Voltage after frequency when scaling down (70 R226): when a step of a decreasing SETFREQ changes VTARG, the fields
already give the target frequency, the core is un-bypassed, and a PLL that keeps its lock is locked. -/
def Obligations.DecreaseLowersVoltageLast : Prop :=
  ∀ s t : State, Inv s → CommandInFlight s → s.cmd = opSetfreq → s.inc = false → step s = .next t →
    t.vtarg ≠ s.vtarg →
    Arrived s ∧ t.pll = s.pll ∧ t.cdiv = s.cdiv ∧ vcoreOf s.cfg t.vtarg = quant s.opUv

/-- O53. Every VTARG value a command writes has a secondary code of at least 18 and of at least its core code (43 R124,
R130 (c), (d); 70 R239 P6). -/
def Obligations.WrittenSecondaryCodeKeepsFloor : Prop :=
  ∀ (s t : State) (w : Word), Inv s → CommandInFlight s → step s = .next t → t.bus = s.bus ++ [.wr s.cfg.aVtarg w] →
    18 ≤ (vsocOf s.cfg w).toNat ∧ (vcoreOf s.cfg w).toNat ≤ (vsocOf s.cfg w).toNat ∧ t.vtarg = w

/-- O54. Commands change no foreign bit of any register (10_state.md R19; 70 R239 P7). -/
def Obligations.CommandsPreserveForeignBits : Prop :=
  ∀ s t : State, Inv s → CommandInFlight s → step s = .next t → ∀ j : Nat,
    ((fieldBits s.cfg.divOff s.cfg.divMask).getLsbD j = false →
      (fieldBits s.cfg.srcOff s.cfg.srcMask).getLsbD j = false → j ≠ s.cfg.bypBit.toNat →
      t.pll.getLsbD j = s.pll.getLsbD j) ∧
    ((fieldBits s.cfg.podfOff s.cfg.podfMask).getLsbD j = false → t.cdiv.getLsbD j = s.cdiv.getLsbD j) ∧
    ((fieldBits s.cfg.vcoreOff 0x1F#7).getLsbD j = false → (fieldBits s.cfg.vsocOff 0x1F#7).getLsbD j = false →
      t.vtarg.getLsbD j = s.vtarg.getLsbD j)

/-- O55. A response is emitted only in S_RESPOND, one a command, and ends it (30_encoding.md R66; 44 R161); conversely a
step that brings a command in flight back to S_IDLE emits exactly one response, of STATUS and RDATA, to the trace and to
the host. A SETFREQ that answers OK leaves the fields at the target frequency (70 R239 P8), and an RDFREQ answers OK with
the fields' frequency; an error carries data 0. On the wire a response is the 35-bit word of R66, the status code of R67
above the data. -/
def Obligations.ResponsesEndCommandsTruthfully : Prop :=
  (∀ r : Response,
    r.word.extractLsb' 32 3 = r.status.code ∧ r.word.extractLsb' 0 32 = r.data ∧
    r.status.code.toNat = match r.status with
      | .ok => 0 | .unsupportedFrequency => 1 | .unsupportedFamily => 2 | .illegalCommand => 3 | .hardwareTimeout => 4) ∧
  ∀ s t : State, Inv s → step s = .next t →
    (t.rsp = s.rsp ∨ (s.st = .sRespond ∧ t.st = .sIdle ∧ t.rsp = s.rsp ++ [⟨s.status, s.rdata⟩])) ∧
    (CommandInFlight s → t.st = .sIdle →
      t.rsp = s.rsp ++ [⟨s.status, s.rdata⟩] ∧ t.rspOut = s.rspOut ++ [⟨s.status, s.rdata⟩]) ∧
    (∀ d, CommandInFlight s → s.cmd = opSetfreq → t.rsp = s.rsp ++ [⟨.ok, d⟩] → fieldsHz t = s.arg ∧ d = 0#32) ∧
    (∀ e d, CommandInFlight s → s.cmd = opRdfreq → t.rsp = s.rsp ++ [⟨e, d⟩] → e = .ok ∧ d = fieldsHz t) ∧
    (∀ e d, t.rsp = s.rsp ++ [⟨e, d⟩] → e ≠ .ok → d = 0#32)

/-- O56. What the sequencer never consults (60 R208; 45 R179; 10_state.md R20 (b), R22): changing the three traces and
`rail_settled` changes no step, but for what is appended to those traces and the rails' own bit. The traces are
append-only. -/
def Obligations.TracesAndRailStatusAreNeverConsulted : Prop :=
  ∀ s t : State, step s = .next t →
    ∃ eb er ed, t.bus = s.bus ++ eb ∧ t.rsp = s.rsp ++ er ∧ t.diag = s.diag ++ ed ∧
      ∀ b r d rail, ∃ rail',
        step { s with bus := b, rsp := r, diag := d, railSettled := rail } =
          .next { t with bus := b ++ eb, rsp := r ++ er, diag := d ++ ed, railSettled := rail' }

/-- O57. No command depends on a latch value left by an earlier one (10_state.md R13; 42 R113): from rest, with no
stand-alone micro-operation presented, two states that differ only in the working latches run any schedule alike, in
everything but working latches. -/
def Obligations.LatchesCarryNothingBetweenCommands : Prop :=
  ∀ (s l t : State) (ms : List Move), Inv s → s.st = .sIdle → s.md = none →
    (∀ w ∈ s.port, isCmdWord w = true) → (∀ m ∈ ms, presentsNoMop m = true) →
    runMoves ms s = .next t →
    ∃ l', runMoves ms (withLatches l s) = .next (withLatches l' t)

/-- O58. The macro-states follow DOC0's line (44 R162, 10_state.md R24): a sequencer step of a SETFREQ in flight stays in
its macro-state or takes one of the listed edges; S_POST counts as VoltageLower (R24), so DividerCommit reaches Idle
through it when INC = 1. -/
def Obligations.MacroStatesFollowTheLine : Prop :=
  ∀ s t : State, Inv s → SequencerMoves s → CommandInFlight s → s.cmd = opSetfreq → step s = .next t →
    ∃ a b, macroOf s = some a ∧ macroOf t = some b ∧
      (a = b ∨ (a, b) ∈ [(Macro.idle, Macro.lookupTarget), (.lookupTarget, .idle), (.lookupTarget, .voltageRaise),
        (.lookupTarget, .bypass), (.voltageRaise, .bypass), (.bypass, .waitLock), (.waitLock, .unbypass),
        (.waitLock, .idle), (.unbypass, .dividerCommit), (.dividerCommit, .voltageLower), (.voltageLower, .idle)]) ∧
      ((a, b) = (.waitLock, .idle) → s.cfg.lockDeadline ≠ none ∧ t.status = .hardwareTimeout) ∧
      ((a, b) = (.lookupTarget, .voltageRaise) → t.inc = true) ∧
      ((a, b) = (.lookupTarget, .bypass) → t.inc = false)

/-- O59. The intermediate clock values of a frequency change (70 R232, R238): while insulated the core runs at
OSC_HZ / (PODF + 1) with the post-divider then programmed; between un-bypass and the post-divider commit a locked PLL
runs it at Freq(new DIV, old PODF). -/
def Obligations.IntermediateClockFrequencies : Prop :=
  ∀ s : State, Inv s →
    (s.st = .sDivselRd ∨ s.st = .sDivselWr ∨ s.st = .sWaitLock ∨ s.st = .sUnbypRd ∨ s.st = .sUnbypWr →
      fCore s = .hz (24000000 / ((podfOf s.cfg s.cdiv).toNat + 1))) ∧
    (s.st = .sPodfRd ∨ s.st = .sPodfWr → s.cfg.pllMayDropLock = false →
      fCore s = .hz (freq s.opDiv (podfOf s.cfg s.cdiv)).toNat) ∧
    (s.st = .sPost → s.cfg.pllMayDropLock = false → fCore s = .hz s.arg.toNat)

/-- O60. Under the premise SETTLE_SUFFICIENT (45 R180) along the way, the rails have settled when the controller reports,
and from there on every step of the command up to S_POST keeps them settled: through the diagnostic event, the source,
bypass and divider writes, the lock wait, the un-bypass write that speeds the core up, and the post-divider commit. -/
def Obligations.SettledRailsStaySettledThroughPllWrites : Prop :=
  ∀ s t : State, SettleSufficient s → CommandInFlight s → step s = .next t →
    (s.st = .sVSettle → t.st = .sVDiag → t.railSettled = true) ∧
    (s.railSettled = true →
      s.st ∈ [SeqState.sVDiag, .sBypsrcRd, .sBypsrcWr, .sBypsetRd, .sBypsetWr, .sDivselRd, .sDivselWr, .sWaitLock,
        .sUnbypRd, .sUnbypWr, .sPodfRd, .sPodfWr, .sPost] →
      t.railSettled = true)
end

