-- ==== Sys2Proof/Laws/Decode.lean ====
section
/-! SUPPORT. The fields of an encoded word read back as they were put in. -/

namespace Sys2Proof

@[simp] theorem regOfCode_code (r : Reg) : regOfCode r.code = some r := by cases r <;> decide

@[simp] theorem cwOp_cmdWord (op : BitVec 4) (arg : Word) : cwOp (cmdWord op arg) = op := by
  apply BitVec.eq_of_getLsbD_eq; intro i hi
  simp only [cwOp, cmdWord, BitVec.getLsbD_extractLsb', BitVec.getLsbD_append]
  simp [hi]

@[simp] theorem cwArg_cmdWord (op : BitVec 4) (arg : Word) : cwArg (cmdWord op arg) = arg := by
  apply BitVec.eq_of_getLsbD_eq; intro i hi
  simp only [cwArg, cmdWord, BitVec.getLsbD_extractLsb', BitVec.getLsbD_append]
  simp [hi]

/-- A command word is its opcode and its operand (30_encoding.md R60). -/
@[simp] theorem cmdWord_fields (cw : BitVec 36) : cmdWord (cwOp cw) (cwArg cw) = cw := by
  apply BitVec.eq_of_getLsbD_eq; intro i hi
  simp only [cwOp, cwArg, cmdWord, BitVec.getLsbD_extractLsb', BitVec.getLsbD_append]
  by_cases h : i < 32
  · simp [h]
  · have h2 : i - 32 < 4 := by omega
    have h3 : 32 + (i - 32) = i := by omega
    simp [h, h2, h3]

variable (kind : BitVec 4) (reg : BitVec 2) (off : BitVec 5) (mask val : BitVec 7)

theorem mopWord_getLsbD (i : Nat) : (mopWord kind reg off mask val).getLsbD i =
    if i < 7 then val.getLsbD i else if i < 14 then mask.getLsbD (i - 7) else if i < 19 then off.getLsbD (i - 14)
    else if i < 21 then reg.getLsbD (i - 19) else kind.getLsbD (i - 21) := by
  simp only [mopWord, BitVec.getLsbD_append]
  rcases Nat.lt_or_ge i 7 with h | h
  · simp [h]
  rcases Nat.lt_or_ge i 14 with h2 | h2
  · simp [h2, show ¬ i < 7 by omega, show i - 7 < 7 by omega]
  rcases Nat.lt_or_ge i 19 with h3 | h3
  · simp [h3, show ¬ i < 7 by omega, show ¬ i < 14 by omega, show ¬ i - 7 < 7 by omega,
      show i - 7 - 7 = i - 14 by omega]
    intro; omega
  rcases Nat.lt_or_ge i 21 with h4 | h4
  · simp [h4, show ¬ i < 7 by omega, show ¬ i < 14 by omega, show ¬ i < 19 by omega, show ¬ i - 7 < 7 by omega,
      show ¬ i - 7 - 7 < 5 by omega, show i - 7 - 7 - 5 = i - 19 by omega]
    intro; omega
  · simp [show ¬ i < 7 by omega, show ¬ i < 14 by omega, show ¬ i < 19 by omega, show ¬ i < 21 by omega,
      show ¬ i - 7 < 7 by omega, show ¬ i - 7 - 7 < 5 by omega, show ¬ i - 7 - 7 - 5 < 2 by omega,
      show i - 7 - 7 - 5 - 2 = i - 21 by omega]

@[simp] theorem mdKind_mopWord : mdKind (mopWord kind reg off mask val) = kind := by
  apply BitVec.eq_of_getLsbD_eq; intro i hi
  simp only [mdKind, BitVec.getLsbD_extractLsb', mopWord_getLsbD, hi, decide_true, Bool.true_and]
  simp [show ¬ 21 + i < 7 by omega, show ¬ 21 + i < 14 by omega, show ¬ 21 + i < 19 by omega]

@[simp] theorem mdReg_mopWord : mdReg (mopWord kind reg off mask val) = reg := by
  apply BitVec.eq_of_getLsbD_eq; intro i hi
  simp only [mdReg, BitVec.getLsbD_extractLsb', mopWord_getLsbD, hi, decide_true, Bool.true_and]
  simp [show ¬ 19 + i < 7 by omega, show ¬ 19 + i < 14 by omega, show 19 + i < 21 by omega]

@[simp] theorem mdOff_mopWord : mdOff (mopWord kind reg off mask val) = off := by
  apply BitVec.eq_of_getLsbD_eq; intro i hi
  simp only [mdOff, BitVec.getLsbD_extractLsb', mopWord_getLsbD, hi, decide_true, Bool.true_and]
  simp [show ¬ 14 + i < 7 by omega, show 14 + i < 19 by omega]

@[simp] theorem mdMask_mopWord : mdMask (mopWord kind reg off mask val) = mask := by
  apply BitVec.eq_of_getLsbD_eq; intro i hi
  simp only [mdMask, BitVec.getLsbD_extractLsb', mopWord_getLsbD, hi, decide_true, Bool.true_and]
  simp [show 7 + i < 14 by omega]

@[simp] theorem mdVal_mopWord : mdVal (mopWord kind reg off mask val) = val := by
  apply BitVec.eq_of_getLsbD_eq; intro i hi
  simp only [mdVal, BitVec.getLsbD_extractLsb', mopWord_getLsbD, hi, decide_true, Bool.true_and]
  simp [hi]

/-- What the decoder answers on a command word, by its opcode (30_encoding.md R61, R63). -/
theorem decode_cmdWord (op : BitVec 4) (arg : Word) :
    decode (.cmd (cmdWord op arg)) =
      if op = opSetfreq then .ok (.setfreq arg)
      else if op = opRdfreq then .ok (.rdfreq arg)
      else if op = opSetop then .ok (.setop arg)
      else if op = opLookup then .ok (.lookup arg)
      else .error (.reservedOpcode op arg) := by
  simp [decode, decodeCmd]

end Sys2Proof
end

