-- ==== Sys2Proof/Laws/Fields.lean ====
section
/-! SUPPORT. Fields and bits of a register value: what each operand operation of Machine/Operands.lean does to every
bit, and what a field or a bit reads as after another field or bit of the same word was written. -/

namespace Sys2Proof.Machine

/-! ### Every bit -/

theorem bitAt_getLsbD (b : BitVec 5) (i : Nat) :
    (bitAt b).getLsbD i = decide (i = b.toNat) := by
  have := b.isLt
  simp only [bitAt, BitVec.getLsbD_shiftLeft, BitVec.getLsbD_one]
  by_cases h : i = b.toNat
  · subst h; simp; omega
  · simp only [h, decide_false]
    by_cases h2 : i < b.toNat
    · simp [h2]
    · simp; omega

theorem fieldBits_getLsbD (off : BitVec 5) (mask : BitVec 7) (i : Nat) :
    (fieldBits off mask).getLsbD i =
      (decide (i < 32) && decide (off.toNat ≤ i) && mask.getLsbD (i - off.toNat)) := by
  simp only [fieldBits, BitVec.getLsbD_shiftLeft, BitVec.getLsbD_setWidth]
  by_cases h1 : i < 32
  · have h3 : i - off.toNat < 32 := by omega
    by_cases h2 : i < off.toNat
    · have : ¬ off.toNat ≤ i := by omega
      simp [h1, h2, this]
    · have : off.toNat ≤ i := by omega
      simp only [h1, h2, h3, this, decide_true, decide_false, Bool.not_false, Bool.true_and]
  · simp [h1]

theorem field_getLsbD (r : Word) (off : BitVec 5) (mask : BitVec 7) (i : Nat) :
    (field r off mask).getLsbD i = (r.getLsbD (off.toNat + i) && mask.getLsbD i) := by
  simp only [field, BitVec.getLsbD_and, BitVec.getLsbD_setWidth, BitVec.getLsbD_ushiftRight]
  by_cases h : i < 7
  · simp [h]
  · simp [BitVec.getLsbD_of_ge mask i (by omega)]

theorem insertField_getLsbD (r : Word) (off : BitVec 5) (mask v : BitVec 7) (i : Nat) :
    (insertField r off mask v).getLsbD i =
      if (fieldBits off mask).getLsbD i then v.getLsbD (i - off.toNat) else r.getLsbD i := by
  simp only [insertField, BitVec.getLsbD_or, BitVec.getLsbD_and, BitVec.getLsbD_not, fieldBits_getLsbD]
  by_cases h1 : i < 32 <;> by_cases h2 : off.toNat ≤ i <;>
    cases h3 : mask.getLsbD (i - off.toNat) <;> simp [h1, h2]
  all_goals first | omega | exact BitVec.getLsbD_of_ge r i (by omega)

theorem setBit_getLsbD (r : Word) (b : BitVec 5) (i : Nat) :
    (setBit r b).getLsbD i = (r.getLsbD i || decide (i = b.toNat)) := by
  simp [setBit, bitAt_getLsbD]

theorem clearBit_getLsbD (r : Word) (b : BitVec 5) (i : Nat) :
    (clearBit r b).getLsbD i = (r.getLsbD i && !decide (i = b.toNat)) := by
  by_cases h : i < 32
  · simp only [clearBit, BitVec.getLsbD_and, BitVec.getLsbD_not, bitAt_getLsbD, h, decide_true, Bool.true_and]
  · simp [clearBit, BitVec.getLsbD_of_ge r i (by omega)]

theorem clearFieldBits_getLsbD (r : Word) (off : BitVec 5) (mask : BitVec 7) (i : Nat) :
    (clearFieldBits r off mask).getLsbD i = (r.getLsbD i && !(fieldBits off mask).getLsbD i) := by
  by_cases h : i < 32
  · simp only [clearFieldBits, BitVec.getLsbD_and, BitVec.getLsbD_not, h, decide_true, Bool.true_and]
  · simp [clearFieldBits, BitVec.getLsbD_of_ge r i (by omega)]

/-! ### A mask's width -/

theorem lt_maskWidth {mask : BitVec 7} {i : Nat} (h : mask.getLsbD i = true) : i < maskWidth mask := by
  have h2 : 2 ^ i ≤ mask.toNat := Nat.ge_two_pow_of_testBit h
  have h0 : mask.toNat ≠ 0 := by have := Nat.two_pow_pos i; omega
  have : i ≤ mask.toNat.log2 := (Nat.le_log2 h0).mpr h2
  simp only [maskWidth, h0, if_false]; omega

/-- A field that fits (40 R90) keeps every mask bit inside the register. -/
theorem fieldFits_bit {off : BitVec 5} {mask : BitVec 7} (hf : fieldFits off mask = true) {i : Nat}
    (h : mask.getLsbD i = true) : off.toNat + i < 32 := by
  have := lt_maskWidth h
  simp only [fieldFits, decide_eq_true_eq] at hf; omega

/-! ### Reading a field or a bit after a write -/

/-- Bits that no field shares are untouched: `fieldBits` that meet nowhere differ at every index. -/
theorem apart_bit {a b : Word} (h : a &&& b = 0#32) {i : Nat} (ha : a.getLsbD i = true) : b.getLsbD i = false := by
  have := congrArg (fun w => w.getLsbD i) h
  simpa [ha] using this

theorem field_insertField_same (r : Word) (off : BitVec 5) (mask v : BitVec 7) (hf : fieldFits off mask = true) :
    field (insertField r off mask v) off mask = v &&& mask := by
  apply BitVec.eq_of_getLsbD_eq; intro i hi
  rw [field_getLsbD, insertField_getLsbD, fieldBits_getLsbD, BitVec.getLsbD_and]
  cases h : mask.getLsbD i
  · simp
  · have := fieldFits_bit hf h
    simp [h, this]

/-- A field reads the same in two words that agree on its bits. -/
theorem field_congr {r r' : Word} {off : BitVec 5} {mask : BitVec 7}
    (h : ∀ i, (fieldBits off mask).getLsbD i = true → r.getLsbD i = r'.getLsbD i) :
    field r off mask = field r' off mask := by
  apply BitVec.eq_of_getLsbD_eq; intro i hi
  rw [field_getLsbD, field_getLsbD]
  cases hm : mask.getLsbD i
  · simp
  · simp only [Bool.and_true]
    by_cases h32 : off.toNat + i < 32
    · exact h _ (by rw [fieldBits_getLsbD]; simp [h32, hm])
    · rw [BitVec.getLsbD_of_ge r _ (by omega), BitVec.getLsbD_of_ge r' _ (by omega)]

theorem field_insertField_apart (r : Word) {off off' : BitVec 5} {mask mask' : BitVec 7} (v : BitVec 7)
    (h : fieldBits off mask &&& fieldBits off' mask' = 0#32) :
    field (insertField r off' mask' v) off mask = field r off mask :=
  field_congr fun i hi => by rw [insertField_getLsbD, apart_bit h hi]; simp

theorem field_setBit_apart (r : Word) {off b : BitVec 5} {mask : BitVec 7}
    (h : fieldBits off mask &&& bitAt b = 0#32) : field (setBit r b) off mask = field r off mask :=
  field_congr fun i hi => by
    have := apart_bit h hi
    rw [bitAt_getLsbD] at this; rw [setBit_getLsbD, this]; simp

theorem field_clearBit_apart (r : Word) {off b : BitVec 5} {mask : BitVec 7}
    (h : fieldBits off mask &&& bitAt b = 0#32) : field (clearBit r b) off mask = field r off mask :=
  field_congr fun i hi => by
    have := apart_bit h hi
    rw [bitAt_getLsbD] at this; rw [clearBit_getLsbD, this]; simp

theorem testBit_insertField_apart (r : Word) {off b : BitVec 5} {mask : BitVec 7} (v : BitVec 7)
    (h : fieldBits off mask &&& bitAt b = 0#32) : testBit (insertField r off mask v) b = testBit r b := by
  rw [testBit, insertField_getLsbD]
  cases hi : (fieldBits off mask).getLsbD b.toNat
  · simp [testBit]
  · have := apart_bit h hi
    simp [bitAt_getLsbD] at this

@[simp] theorem testBit_setBit_same (r : Word) (b : BitVec 5) : testBit (setBit r b) b = true := by
  simp [testBit, setBit_getLsbD]

@[simp] theorem testBit_clearBit_same (r : Word) (b : BitVec 5) : testBit (clearBit r b) b = false := by
  simp [testBit, clearBit_getLsbD]

theorem testBit_clearBit_apart (r : Word) {b b' : BitVec 5} (h : b ≠ b') :
    testBit (clearBit r b') b = testBit r b := by
  have : b.toNat ≠ b'.toNat := fun e => h (BitVec.eq_of_toNat_eq e)
  simp [testBit, clearBit_getLsbD, this]

theorem testBit_setBit_apart (r : Word) {b b' : BitVec 5} (h : b ≠ b') :
    testBit (setBit r b') b = testBit r b := by
  have : b.toNat ≠ b'.toNat := fun e => h (BitVec.eq_of_toNat_eq e)
  simp [testBit, setBit_getLsbD, this]

@[simp] theorem clearBit_clearBit (r : Word) (b : BitVec 5) : clearBit (clearBit r b) b = clearBit r b := by
  apply BitVec.eq_of_getLsbD_eq; intro i hi
  simp only [clearBit_getLsbD]; cases decide (i = b.toNat) <;> simp

@[simp] theorem clearBit_setBit (r : Word) (b : BitVec 5) : clearBit (setBit r b) b = clearBit r b := by
  apply BitVec.eq_of_getLsbD_eq; intro i hi
  simp only [clearBit_getLsbD, setBit_getLsbD]; cases decide (i = b.toNat) <;> simp

end Sys2Proof.Machine
end

