-- ==== Sys2Proof/Laws/State.lean ====
section
/-! SUPPORT. Every field of State after every named update (one lemma per field and update), so that no later proof
unfolds a record update. `storeReg` and `memWrite` on the five register fields follow, register by register. -/

namespace Sys2Proof.Machine

/-! ### afterRead -/

@[simp] theorem afterRead_st (r : Reg) (s : State) : (afterRead r s).st = s.st := rfl
@[simp] theorem afterRead_cmd (r : Reg) (s : State) : (afterRead r s).cmd = s.cmd := rfl
@[simp] theorem afterRead_arg (r : Reg) (s : State) : (afterRead r s).arg = s.arg := rfl
@[simp] theorem afterRead_opDiv (r : Reg) (s : State) : (afterRead r s).opDiv = s.opDiv := rfl
@[simp] theorem afterRead_opPodf (r : Reg) (s : State) : (afterRead r s).opPodf = s.opPodf := rfl
@[simp] theorem afterRead_opUv (r : Reg) (s : State) : (afterRead r s).opUv = s.opUv := rfl
@[simp] theorem afterRead_rdDiv (r : Reg) (s : State) : (afterRead r s).rdDiv = s.rdDiv := rfl
@[simp] theorem afterRead_rdPodf (r : Reg) (s : State) : (afterRead r s).rdPodf = s.rdPodf := rfl
@[simp] theorem afterRead_curHz (r : Reg) (s : State) : (afterRead r s).curHz = s.curHz := rfl
@[simp] theorem afterRead_inc (r : Reg) (s : State) : (afterRead r s).inc = s.inc := rfl
@[simp] theorem afterRead_vphase (r : Reg) (s : State) : (afterRead r s).vphase = s.vphase := rfl
@[simp] theorem afterRead_vUv (r : Reg) (s : State) : (afterRead r s).vUv = s.vUv := rfl
@[simp] theorem afterRead_vCore (r : Reg) (s : State) : (afterRead r s).vCore = s.vCore := rfl
@[simp] theorem afterRead_vOld (r : Reg) (s : State) : (afterRead r s).vOld = s.vOld := rfl
@[simp] theorem afterRead_vSoc (r : Reg) (s : State) : (afterRead r s).vSoc = s.vSoc := rfl
@[simp] theorem afterRead_tmp (r : Reg) (s : State) : (afterRead r s).tmp = s.tmp := rfl
@[simp] theorem afterRead_dly (r : Reg) (s : State) : (afterRead r s).dly = s.dly := rfl
@[simp] theorem afterRead_polls (r : Reg) (s : State) : (afterRead r s).polls = s.polls := rfl
@[simp] theorem afterRead_status (r : Reg) (s : State) : (afterRead r s).status = s.status := rfl
@[simp] theorem afterRead_rdata (r : Reg) (s : State) : (afterRead r s).rdata = s.rdata := rfl
@[simp] theorem afterRead_family (r : Reg) (s : State) : (afterRead r s).family = s.family := rfl
@[simp] theorem afterRead_pll (r : Reg) (s : State) : (afterRead r s).pll = s.pll := rfl
@[simp] theorem afterRead_pllLock (r : Reg) (s : State) : (afterRead r s).pllLock = s.pllLock := rfl
@[simp] theorem afterRead_cdiv (r : Reg) (s : State) : (afterRead r s).cdiv = s.cdiv := rfl
@[simp] theorem afterRead_vtarg (r : Reg) (s : State) : (afterRead r s).vtarg = s.vtarg := rfl
@[simp] theorem afterRead_railSettled (r : Reg) (s : State) : (afterRead r s).railSettled = s.railSettled := rfl
@[simp] theorem afterRead_bus (r : Reg) (s : State) : (afterRead r s).bus = s.bus ++ [.rd (addrOf s.cfg r) (busValue r s)] := rfl
@[simp] theorem afterRead_rsp (r : Reg) (s : State) : (afterRead r s).rsp = s.rsp := rfl
@[simp] theorem afterRead_diag (r : Reg) (s : State) : (afterRead r s).diag = s.diag := rfl
@[simp] theorem afterRead_rspOut (r : Reg) (s : State) : (afterRead r s).rspOut = s.rspOut := rfl
@[simp] theorem afterRead_port (r : Reg) (s : State) : (afterRead r s).port = s.port := rfl
@[simp] theorem afterRead_md (r : Reg) (s : State) : (afterRead r s).md = s.md := rfl
@[simp] theorem afterRead_mphase (r : Reg) (s : State) : (afterRead r s).mphase = s.mphase := rfl
@[simp] theorem afterRead_mopResult (r : Reg) (s : State) : (afterRead r s).mopResult = s.mopResult := rfl
@[simp] theorem afterRead_freeCtr (r : Reg) (s : State) : (afterRead r s).freeCtr = s.freeCtr := rfl
@[simp] theorem afterRead_sched (r : Reg) (s : State) : (afterRead r s).sched = s.sched := rfl
@[simp] theorem afterRead_cfg (r : Reg) (s : State) : (afterRead r s).cfg = s.cfg := rfl

/-! ### readToTmp -/

@[simp] theorem readToTmp_st (r : Reg) (s : State) : (readToTmp r s).st = s.st := rfl
@[simp] theorem readToTmp_cmd (r : Reg) (s : State) : (readToTmp r s).cmd = s.cmd := rfl
@[simp] theorem readToTmp_arg (r : Reg) (s : State) : (readToTmp r s).arg = s.arg := rfl
@[simp] theorem readToTmp_opDiv (r : Reg) (s : State) : (readToTmp r s).opDiv = s.opDiv := rfl
@[simp] theorem readToTmp_opPodf (r : Reg) (s : State) : (readToTmp r s).opPodf = s.opPodf := rfl
@[simp] theorem readToTmp_opUv (r : Reg) (s : State) : (readToTmp r s).opUv = s.opUv := rfl
@[simp] theorem readToTmp_rdDiv (r : Reg) (s : State) : (readToTmp r s).rdDiv = s.rdDiv := rfl
@[simp] theorem readToTmp_rdPodf (r : Reg) (s : State) : (readToTmp r s).rdPodf = s.rdPodf := rfl
@[simp] theorem readToTmp_curHz (r : Reg) (s : State) : (readToTmp r s).curHz = s.curHz := rfl
@[simp] theorem readToTmp_inc (r : Reg) (s : State) : (readToTmp r s).inc = s.inc := rfl
@[simp] theorem readToTmp_vphase (r : Reg) (s : State) : (readToTmp r s).vphase = s.vphase := rfl
@[simp] theorem readToTmp_vUv (r : Reg) (s : State) : (readToTmp r s).vUv = s.vUv := rfl
@[simp] theorem readToTmp_vCore (r : Reg) (s : State) : (readToTmp r s).vCore = s.vCore := rfl
@[simp] theorem readToTmp_vOld (r : Reg) (s : State) : (readToTmp r s).vOld = s.vOld := rfl
@[simp] theorem readToTmp_vSoc (r : Reg) (s : State) : (readToTmp r s).vSoc = s.vSoc := rfl
@[simp] theorem readToTmp_tmp (r : Reg) (s : State) : (readToTmp r s).tmp = busValue r s := rfl
@[simp] theorem readToTmp_dly (r : Reg) (s : State) : (readToTmp r s).dly = s.dly := rfl
@[simp] theorem readToTmp_polls (r : Reg) (s : State) : (readToTmp r s).polls = s.polls := rfl
@[simp] theorem readToTmp_status (r : Reg) (s : State) : (readToTmp r s).status = s.status := rfl
@[simp] theorem readToTmp_rdata (r : Reg) (s : State) : (readToTmp r s).rdata = s.rdata := rfl
@[simp] theorem readToTmp_family (r : Reg) (s : State) : (readToTmp r s).family = s.family := rfl
@[simp] theorem readToTmp_pll (r : Reg) (s : State) : (readToTmp r s).pll = s.pll := rfl
@[simp] theorem readToTmp_pllLock (r : Reg) (s : State) : (readToTmp r s).pllLock = s.pllLock := rfl
@[simp] theorem readToTmp_cdiv (r : Reg) (s : State) : (readToTmp r s).cdiv = s.cdiv := rfl
@[simp] theorem readToTmp_vtarg (r : Reg) (s : State) : (readToTmp r s).vtarg = s.vtarg := rfl
@[simp] theorem readToTmp_railSettled (r : Reg) (s : State) : (readToTmp r s).railSettled = s.railSettled := rfl
@[simp] theorem readToTmp_bus (r : Reg) (s : State) : (readToTmp r s).bus = s.bus ++ [.rd (addrOf s.cfg r) (busValue r s)] := rfl
@[simp] theorem readToTmp_rsp (r : Reg) (s : State) : (readToTmp r s).rsp = s.rsp := rfl
@[simp] theorem readToTmp_diag (r : Reg) (s : State) : (readToTmp r s).diag = s.diag := rfl
@[simp] theorem readToTmp_rspOut (r : Reg) (s : State) : (readToTmp r s).rspOut = s.rspOut := rfl
@[simp] theorem readToTmp_port (r : Reg) (s : State) : (readToTmp r s).port = s.port := rfl
@[simp] theorem readToTmp_md (r : Reg) (s : State) : (readToTmp r s).md = s.md := rfl
@[simp] theorem readToTmp_mphase (r : Reg) (s : State) : (readToTmp r s).mphase = s.mphase := rfl
@[simp] theorem readToTmp_mopResult (r : Reg) (s : State) : (readToTmp r s).mopResult = s.mopResult := rfl
@[simp] theorem readToTmp_freeCtr (r : Reg) (s : State) : (readToTmp r s).freeCtr = s.freeCtr := rfl
@[simp] theorem readToTmp_sched (r : Reg) (s : State) : (readToTmp r s).sched = s.sched := rfl
@[simp] theorem readToTmp_cfg (r : Reg) (s : State) : (readToTmp r s).cfg = s.cfg := rfl

/-! ### storeReg -/

@[simp] theorem storeReg_st (r : Reg) (w : Word) (s : State) : (storeReg r w s).st = s.st := by cases r <;> rfl
@[simp] theorem storeReg_cmd (r : Reg) (w : Word) (s : State) : (storeReg r w s).cmd = s.cmd := by cases r <;> rfl
@[simp] theorem storeReg_arg (r : Reg) (w : Word) (s : State) : (storeReg r w s).arg = s.arg := by cases r <;> rfl
@[simp] theorem storeReg_opDiv (r : Reg) (w : Word) (s : State) : (storeReg r w s).opDiv = s.opDiv := by cases r <;> rfl
@[simp] theorem storeReg_opPodf (r : Reg) (w : Word) (s : State) : (storeReg r w s).opPodf = s.opPodf := by cases r <;> rfl
@[simp] theorem storeReg_opUv (r : Reg) (w : Word) (s : State) : (storeReg r w s).opUv = s.opUv := by cases r <;> rfl
@[simp] theorem storeReg_rdDiv (r : Reg) (w : Word) (s : State) : (storeReg r w s).rdDiv = s.rdDiv := by cases r <;> rfl
@[simp] theorem storeReg_rdPodf (r : Reg) (w : Word) (s : State) : (storeReg r w s).rdPodf = s.rdPodf := by cases r <;> rfl
@[simp] theorem storeReg_curHz (r : Reg) (w : Word) (s : State) : (storeReg r w s).curHz = s.curHz := by cases r <;> rfl
@[simp] theorem storeReg_inc (r : Reg) (w : Word) (s : State) : (storeReg r w s).inc = s.inc := by cases r <;> rfl
@[simp] theorem storeReg_vphase (r : Reg) (w : Word) (s : State) : (storeReg r w s).vphase = s.vphase := by cases r <;> rfl
@[simp] theorem storeReg_vUv (r : Reg) (w : Word) (s : State) : (storeReg r w s).vUv = s.vUv := by cases r <;> rfl
@[simp] theorem storeReg_vCore (r : Reg) (w : Word) (s : State) : (storeReg r w s).vCore = s.vCore := by cases r <;> rfl
@[simp] theorem storeReg_vOld (r : Reg) (w : Word) (s : State) : (storeReg r w s).vOld = s.vOld := by cases r <;> rfl
@[simp] theorem storeReg_vSoc (r : Reg) (w : Word) (s : State) : (storeReg r w s).vSoc = s.vSoc := by cases r <;> rfl
@[simp] theorem storeReg_tmp (r : Reg) (w : Word) (s : State) : (storeReg r w s).tmp = s.tmp := by cases r <;> rfl
@[simp] theorem storeReg_dly (r : Reg) (w : Word) (s : State) : (storeReg r w s).dly = s.dly := by cases r <;> rfl
@[simp] theorem storeReg_polls (r : Reg) (w : Word) (s : State) : (storeReg r w s).polls = s.polls := by cases r <;> rfl
@[simp] theorem storeReg_status (r : Reg) (w : Word) (s : State) : (storeReg r w s).status = s.status := by cases r <;> rfl
@[simp] theorem storeReg_rdata (r : Reg) (w : Word) (s : State) : (storeReg r w s).rdata = s.rdata := by cases r <;> rfl
@[simp] theorem storeReg_family (r : Reg) (w : Word) (s : State) : (storeReg r w s).family = s.family := by cases r <;> rfl
@[simp] theorem storeReg_bus (r : Reg) (w : Word) (s : State) : (storeReg r w s).bus = s.bus := by cases r <;> rfl
@[simp] theorem storeReg_rsp (r : Reg) (w : Word) (s : State) : (storeReg r w s).rsp = s.rsp := by cases r <;> rfl
@[simp] theorem storeReg_diag (r : Reg) (w : Word) (s : State) : (storeReg r w s).diag = s.diag := by cases r <;> rfl
@[simp] theorem storeReg_rspOut (r : Reg) (w : Word) (s : State) : (storeReg r w s).rspOut = s.rspOut := by cases r <;> rfl
@[simp] theorem storeReg_port (r : Reg) (w : Word) (s : State) : (storeReg r w s).port = s.port := by cases r <;> rfl
@[simp] theorem storeReg_md (r : Reg) (w : Word) (s : State) : (storeReg r w s).md = s.md := by cases r <;> rfl
@[simp] theorem storeReg_mphase (r : Reg) (w : Word) (s : State) : (storeReg r w s).mphase = s.mphase := by cases r <;> rfl
@[simp] theorem storeReg_mopResult (r : Reg) (w : Word) (s : State) : (storeReg r w s).mopResult = s.mopResult := by cases r <;> rfl
@[simp] theorem storeReg_freeCtr (r : Reg) (w : Word) (s : State) : (storeReg r w s).freeCtr = s.freeCtr := by cases r <;> rfl
@[simp] theorem storeReg_sched (r : Reg) (w : Word) (s : State) : (storeReg r w s).sched = s.sched := by cases r <;> rfl
@[simp] theorem storeReg_cfg (r : Reg) (w : Word) (s : State) : (storeReg r w s).cfg = s.cfg := by cases r <;> rfl

/-! ### memWrite -/

@[simp] theorem memWrite_st (r : Reg) (w : Word) (s : State) : (memWrite r w s).st = s.st := by cases r <;> rfl
@[simp] theorem memWrite_cmd (r : Reg) (w : Word) (s : State) : (memWrite r w s).cmd = s.cmd := by cases r <;> rfl
@[simp] theorem memWrite_arg (r : Reg) (w : Word) (s : State) : (memWrite r w s).arg = s.arg := by cases r <;> rfl
@[simp] theorem memWrite_opDiv (r : Reg) (w : Word) (s : State) : (memWrite r w s).opDiv = s.opDiv := by cases r <;> rfl
@[simp] theorem memWrite_opPodf (r : Reg) (w : Word) (s : State) : (memWrite r w s).opPodf = s.opPodf := by cases r <;> rfl
@[simp] theorem memWrite_opUv (r : Reg) (w : Word) (s : State) : (memWrite r w s).opUv = s.opUv := by cases r <;> rfl
@[simp] theorem memWrite_rdDiv (r : Reg) (w : Word) (s : State) : (memWrite r w s).rdDiv = s.rdDiv := by cases r <;> rfl
@[simp] theorem memWrite_rdPodf (r : Reg) (w : Word) (s : State) : (memWrite r w s).rdPodf = s.rdPodf := by cases r <;> rfl
@[simp] theorem memWrite_curHz (r : Reg) (w : Word) (s : State) : (memWrite r w s).curHz = s.curHz := by cases r <;> rfl
@[simp] theorem memWrite_inc (r : Reg) (w : Word) (s : State) : (memWrite r w s).inc = s.inc := by cases r <;> rfl
@[simp] theorem memWrite_vphase (r : Reg) (w : Word) (s : State) : (memWrite r w s).vphase = s.vphase := by cases r <;> rfl
@[simp] theorem memWrite_vUv (r : Reg) (w : Word) (s : State) : (memWrite r w s).vUv = s.vUv := by cases r <;> rfl
@[simp] theorem memWrite_vCore (r : Reg) (w : Word) (s : State) : (memWrite r w s).vCore = s.vCore := by cases r <;> rfl
@[simp] theorem memWrite_vOld (r : Reg) (w : Word) (s : State) : (memWrite r w s).vOld = s.vOld := by cases r <;> rfl
@[simp] theorem memWrite_vSoc (r : Reg) (w : Word) (s : State) : (memWrite r w s).vSoc = s.vSoc := by cases r <;> rfl
@[simp] theorem memWrite_tmp (r : Reg) (w : Word) (s : State) : (memWrite r w s).tmp = s.tmp := by cases r <;> rfl
@[simp] theorem memWrite_dly (r : Reg) (w : Word) (s : State) : (memWrite r w s).dly = s.dly := by cases r <;> rfl
@[simp] theorem memWrite_polls (r : Reg) (w : Word) (s : State) : (memWrite r w s).polls = s.polls := by cases r <;> rfl
@[simp] theorem memWrite_status (r : Reg) (w : Word) (s : State) : (memWrite r w s).status = s.status := by cases r <;> rfl
@[simp] theorem memWrite_rdata (r : Reg) (w : Word) (s : State) : (memWrite r w s).rdata = s.rdata := by cases r <;> rfl
@[simp] theorem memWrite_family (r : Reg) (w : Word) (s : State) : (memWrite r w s).family = s.family := by cases r <;> rfl
@[simp] theorem memWrite_bus (r : Reg) (w : Word) (s : State) : (memWrite r w s).bus = s.bus ++ [.wr (addrOf s.cfg r) w] := by cases r <;> rfl
@[simp] theorem memWrite_rsp (r : Reg) (w : Word) (s : State) : (memWrite r w s).rsp = s.rsp := by cases r <;> rfl
@[simp] theorem memWrite_diag (r : Reg) (w : Word) (s : State) : (memWrite r w s).diag = s.diag := by cases r <;> rfl
@[simp] theorem memWrite_rspOut (r : Reg) (w : Word) (s : State) : (memWrite r w s).rspOut = s.rspOut := by cases r <;> rfl
@[simp] theorem memWrite_port (r : Reg) (w : Word) (s : State) : (memWrite r w s).port = s.port := by cases r <;> rfl
@[simp] theorem memWrite_md (r : Reg) (w : Word) (s : State) : (memWrite r w s).md = s.md := by cases r <;> rfl
@[simp] theorem memWrite_mphase (r : Reg) (w : Word) (s : State) : (memWrite r w s).mphase = s.mphase := by cases r <;> rfl
@[simp] theorem memWrite_mopResult (r : Reg) (w : Word) (s : State) : (memWrite r w s).mopResult = s.mopResult := by cases r <;> rfl
@[simp] theorem memWrite_freeCtr (r : Reg) (w : Word) (s : State) : (memWrite r w s).freeCtr = s.freeCtr := by cases r <;> rfl
@[simp] theorem memWrite_sched (r : Reg) (w : Word) (s : State) : (memWrite r w s).sched = s.sched := by cases r <;> rfl
@[simp] theorem memWrite_cfg (r : Reg) (w : Word) (s : State) : (memWrite r w s).cfg = s.cfg := by cases r <;> rfl

/-! ### raise -/

@[simp] theorem raise_st (e : Status) (s : State) : (raise e s).st = .sRespond := rfl
@[simp] theorem raise_cmd (e : Status) (s : State) : (raise e s).cmd = s.cmd := rfl
@[simp] theorem raise_arg (e : Status) (s : State) : (raise e s).arg = s.arg := rfl
@[simp] theorem raise_opDiv (e : Status) (s : State) : (raise e s).opDiv = s.opDiv := rfl
@[simp] theorem raise_opPodf (e : Status) (s : State) : (raise e s).opPodf = s.opPodf := rfl
@[simp] theorem raise_opUv (e : Status) (s : State) : (raise e s).opUv = s.opUv := rfl
@[simp] theorem raise_rdDiv (e : Status) (s : State) : (raise e s).rdDiv = s.rdDiv := rfl
@[simp] theorem raise_rdPodf (e : Status) (s : State) : (raise e s).rdPodf = s.rdPodf := rfl
@[simp] theorem raise_curHz (e : Status) (s : State) : (raise e s).curHz = s.curHz := rfl
@[simp] theorem raise_inc (e : Status) (s : State) : (raise e s).inc = s.inc := rfl
@[simp] theorem raise_vphase (e : Status) (s : State) : (raise e s).vphase = s.vphase := rfl
@[simp] theorem raise_vUv (e : Status) (s : State) : (raise e s).vUv = s.vUv := rfl
@[simp] theorem raise_vCore (e : Status) (s : State) : (raise e s).vCore = s.vCore := rfl
@[simp] theorem raise_vOld (e : Status) (s : State) : (raise e s).vOld = s.vOld := rfl
@[simp] theorem raise_vSoc (e : Status) (s : State) : (raise e s).vSoc = s.vSoc := rfl
@[simp] theorem raise_tmp (e : Status) (s : State) : (raise e s).tmp = s.tmp := rfl
@[simp] theorem raise_dly (e : Status) (s : State) : (raise e s).dly = s.dly := rfl
@[simp] theorem raise_polls (e : Status) (s : State) : (raise e s).polls = s.polls := rfl
@[simp] theorem raise_status (e : Status) (s : State) : (raise e s).status = e := rfl
@[simp] theorem raise_rdata (e : Status) (s : State) : (raise e s).rdata = s.rdata := rfl
@[simp] theorem raise_family (e : Status) (s : State) : (raise e s).family = s.family := rfl
@[simp] theorem raise_pll (e : Status) (s : State) : (raise e s).pll = s.pll := rfl
@[simp] theorem raise_pllLock (e : Status) (s : State) : (raise e s).pllLock = s.pllLock := rfl
@[simp] theorem raise_cdiv (e : Status) (s : State) : (raise e s).cdiv = s.cdiv := rfl
@[simp] theorem raise_vtarg (e : Status) (s : State) : (raise e s).vtarg = s.vtarg := rfl
@[simp] theorem raise_railSettled (e : Status) (s : State) : (raise e s).railSettled = s.railSettled := rfl
@[simp] theorem raise_bus (e : Status) (s : State) : (raise e s).bus = s.bus := rfl
@[simp] theorem raise_rsp (e : Status) (s : State) : (raise e s).rsp = s.rsp := rfl
@[simp] theorem raise_diag (e : Status) (s : State) : (raise e s).diag = s.diag := rfl
@[simp] theorem raise_rspOut (e : Status) (s : State) : (raise e s).rspOut = s.rspOut := rfl
@[simp] theorem raise_port (e : Status) (s : State) : (raise e s).port = s.port := rfl
@[simp] theorem raise_md (e : Status) (s : State) : (raise e s).md = s.md := rfl
@[simp] theorem raise_mphase (e : Status) (s : State) : (raise e s).mphase = s.mphase := rfl
@[simp] theorem raise_mopResult (e : Status) (s : State) : (raise e s).mopResult = s.mopResult := rfl
@[simp] theorem raise_freeCtr (e : Status) (s : State) : (raise e s).freeCtr = s.freeCtr := rfl
@[simp] theorem raise_sched (e : Status) (s : State) : (raise e s).sched = s.sched := rfl
@[simp] theorem raise_cfg (e : Status) (s : State) : (raise e s).cfg = s.cfg := rfl

/-! ### succeed -/

@[simp] theorem succeed_st (s : State) : (succeed s).st = .sRespond := rfl
@[simp] theorem succeed_cmd (s : State) : (succeed s).cmd = s.cmd := rfl
@[simp] theorem succeed_arg (s : State) : (succeed s).arg = s.arg := rfl
@[simp] theorem succeed_opDiv (s : State) : (succeed s).opDiv = s.opDiv := rfl
@[simp] theorem succeed_opPodf (s : State) : (succeed s).opPodf = s.opPodf := rfl
@[simp] theorem succeed_opUv (s : State) : (succeed s).opUv = s.opUv := rfl
@[simp] theorem succeed_rdDiv (s : State) : (succeed s).rdDiv = s.rdDiv := rfl
@[simp] theorem succeed_rdPodf (s : State) : (succeed s).rdPodf = s.rdPodf := rfl
@[simp] theorem succeed_curHz (s : State) : (succeed s).curHz = s.curHz := rfl
@[simp] theorem succeed_inc (s : State) : (succeed s).inc = s.inc := rfl
@[simp] theorem succeed_vphase (s : State) : (succeed s).vphase = s.vphase := rfl
@[simp] theorem succeed_vUv (s : State) : (succeed s).vUv = s.vUv := rfl
@[simp] theorem succeed_vCore (s : State) : (succeed s).vCore = s.vCore := rfl
@[simp] theorem succeed_vOld (s : State) : (succeed s).vOld = s.vOld := rfl
@[simp] theorem succeed_vSoc (s : State) : (succeed s).vSoc = s.vSoc := rfl
@[simp] theorem succeed_tmp (s : State) : (succeed s).tmp = s.tmp := rfl
@[simp] theorem succeed_dly (s : State) : (succeed s).dly = s.dly := rfl
@[simp] theorem succeed_polls (s : State) : (succeed s).polls = s.polls := rfl
@[simp] theorem succeed_status (s : State) : (succeed s).status = .ok := rfl
@[simp] theorem succeed_rdata (s : State) : (succeed s).rdata = s.rdata := rfl
@[simp] theorem succeed_family (s : State) : (succeed s).family = s.family := rfl
@[simp] theorem succeed_pll (s : State) : (succeed s).pll = s.pll := rfl
@[simp] theorem succeed_pllLock (s : State) : (succeed s).pllLock = s.pllLock := rfl
@[simp] theorem succeed_cdiv (s : State) : (succeed s).cdiv = s.cdiv := rfl
@[simp] theorem succeed_vtarg (s : State) : (succeed s).vtarg = s.vtarg := rfl
@[simp] theorem succeed_railSettled (s : State) : (succeed s).railSettled = s.railSettled := rfl
@[simp] theorem succeed_bus (s : State) : (succeed s).bus = s.bus := rfl
@[simp] theorem succeed_rsp (s : State) : (succeed s).rsp = s.rsp := rfl
@[simp] theorem succeed_diag (s : State) : (succeed s).diag = s.diag := rfl
@[simp] theorem succeed_rspOut (s : State) : (succeed s).rspOut = s.rspOut := rfl
@[simp] theorem succeed_port (s : State) : (succeed s).port = s.port := rfl
@[simp] theorem succeed_md (s : State) : (succeed s).md = s.md := rfl
@[simp] theorem succeed_mphase (s : State) : (succeed s).mphase = s.mphase := rfl
@[simp] theorem succeed_mopResult (s : State) : (succeed s).mopResult = s.mopResult := rfl
@[simp] theorem succeed_freeCtr (s : State) : (succeed s).freeCtr = s.freeCtr := rfl
@[simp] theorem succeed_sched (s : State) : (succeed s).sched = s.sched := rfl
@[simp] theorem succeed_cfg (s : State) : (succeed s).cfg = s.cfg := rfl

/-! ### respond -/

@[simp] theorem respond_st (s : State) : (respond s).st = .sIdle := rfl
@[simp] theorem respond_cmd (s : State) : (respond s).cmd = 0#4 := rfl
@[simp] theorem respond_arg (s : State) : (respond s).arg = s.arg := rfl
@[simp] theorem respond_opDiv (s : State) : (respond s).opDiv = s.opDiv := rfl
@[simp] theorem respond_opPodf (s : State) : (respond s).opPodf = s.opPodf := rfl
@[simp] theorem respond_opUv (s : State) : (respond s).opUv = s.opUv := rfl
@[simp] theorem respond_rdDiv (s : State) : (respond s).rdDiv = s.rdDiv := rfl
@[simp] theorem respond_rdPodf (s : State) : (respond s).rdPodf = s.rdPodf := rfl
@[simp] theorem respond_curHz (s : State) : (respond s).curHz = s.curHz := rfl
@[simp] theorem respond_inc (s : State) : (respond s).inc = s.inc := rfl
@[simp] theorem respond_vphase (s : State) : (respond s).vphase = s.vphase := rfl
@[simp] theorem respond_vUv (s : State) : (respond s).vUv = s.vUv := rfl
@[simp] theorem respond_vCore (s : State) : (respond s).vCore = s.vCore := rfl
@[simp] theorem respond_vOld (s : State) : (respond s).vOld = s.vOld := rfl
@[simp] theorem respond_vSoc (s : State) : (respond s).vSoc = s.vSoc := rfl
@[simp] theorem respond_tmp (s : State) : (respond s).tmp = s.tmp := rfl
@[simp] theorem respond_dly (s : State) : (respond s).dly = s.dly := rfl
@[simp] theorem respond_polls (s : State) : (respond s).polls = s.polls := rfl
@[simp] theorem respond_status (s : State) : (respond s).status = s.status := rfl
@[simp] theorem respond_rdata (s : State) : (respond s).rdata = s.rdata := rfl
@[simp] theorem respond_family (s : State) : (respond s).family = s.family := rfl
@[simp] theorem respond_pll (s : State) : (respond s).pll = s.pll := rfl
@[simp] theorem respond_pllLock (s : State) : (respond s).pllLock = s.pllLock := rfl
@[simp] theorem respond_cdiv (s : State) : (respond s).cdiv = s.cdiv := rfl
@[simp] theorem respond_vtarg (s : State) : (respond s).vtarg = s.vtarg := rfl
@[simp] theorem respond_railSettled (s : State) : (respond s).railSettled = s.railSettled := rfl
@[simp] theorem respond_bus (s : State) : (respond s).bus = s.bus := rfl
@[simp] theorem respond_rsp (s : State) : (respond s).rsp = s.rsp ++ [⟨s.status, s.rdata⟩] := rfl
@[simp] theorem respond_diag (s : State) : (respond s).diag = s.diag := rfl
@[simp] theorem respond_rspOut (s : State) : (respond s).rspOut = s.rspOut ++ [⟨s.status, s.rdata⟩] := rfl
@[simp] theorem respond_port (s : State) : (respond s).port = s.port := rfl
@[simp] theorem respond_md (s : State) : (respond s).md = s.md := rfl
@[simp] theorem respond_mphase (s : State) : (respond s).mphase = s.mphase := rfl
@[simp] theorem respond_mopResult (s : State) : (respond s).mopResult = s.mopResult := rfl
@[simp] theorem respond_freeCtr (s : State) : (respond s).freeCtr = s.freeCtr := rfl
@[simp] theorem respond_sched (s : State) : (respond s).sched = s.sched := rfl
@[simp] theorem respond_cfg (s : State) : (respond s).cfg = s.cfg := rfl

/-! ### emitDiag -/

@[simp] theorem emitDiag_st (s : State) : (emitDiag s).st = s.st := rfl
@[simp] theorem emitDiag_cmd (s : State) : (emitDiag s).cmd = s.cmd := rfl
@[simp] theorem emitDiag_arg (s : State) : (emitDiag s).arg = s.arg := rfl
@[simp] theorem emitDiag_opDiv (s : State) : (emitDiag s).opDiv = s.opDiv := rfl
@[simp] theorem emitDiag_opPodf (s : State) : (emitDiag s).opPodf = s.opPodf := rfl
@[simp] theorem emitDiag_opUv (s : State) : (emitDiag s).opUv = s.opUv := rfl
@[simp] theorem emitDiag_rdDiv (s : State) : (emitDiag s).rdDiv = s.rdDiv := rfl
@[simp] theorem emitDiag_rdPodf (s : State) : (emitDiag s).rdPodf = s.rdPodf := rfl
@[simp] theorem emitDiag_curHz (s : State) : (emitDiag s).curHz = s.curHz := rfl
@[simp] theorem emitDiag_inc (s : State) : (emitDiag s).inc = s.inc := rfl
@[simp] theorem emitDiag_vphase (s : State) : (emitDiag s).vphase = s.vphase := rfl
@[simp] theorem emitDiag_vUv (s : State) : (emitDiag s).vUv = s.vUv := rfl
@[simp] theorem emitDiag_vCore (s : State) : (emitDiag s).vCore = s.vCore := rfl
@[simp] theorem emitDiag_vOld (s : State) : (emitDiag s).vOld = s.vOld := rfl
@[simp] theorem emitDiag_vSoc (s : State) : (emitDiag s).vSoc = s.vSoc := rfl
@[simp] theorem emitDiag_tmp (s : State) : (emitDiag s).tmp = s.tmp := rfl
@[simp] theorem emitDiag_dly (s : State) : (emitDiag s).dly = s.dly := rfl
@[simp] theorem emitDiag_polls (s : State) : (emitDiag s).polls = s.polls := rfl
@[simp] theorem emitDiag_status (s : State) : (emitDiag s).status = s.status := rfl
@[simp] theorem emitDiag_rdata (s : State) : (emitDiag s).rdata = s.rdata := rfl
@[simp] theorem emitDiag_family (s : State) : (emitDiag s).family = s.family := rfl
@[simp] theorem emitDiag_pll (s : State) : (emitDiag s).pll = s.pll := rfl
@[simp] theorem emitDiag_pllLock (s : State) : (emitDiag s).pllLock = s.pllLock := rfl
@[simp] theorem emitDiag_cdiv (s : State) : (emitDiag s).cdiv = s.cdiv := rfl
@[simp] theorem emitDiag_vtarg (s : State) : (emitDiag s).vtarg = s.vtarg := rfl
@[simp] theorem emitDiag_railSettled (s : State) : (emitDiag s).railSettled = s.railSettled := rfl
@[simp] theorem emitDiag_bus (s : State) : (emitDiag s).bus = s.bus := rfl
@[simp] theorem emitDiag_rsp (s : State) : (emitDiag s).rsp = s.rsp := rfl
@[simp] theorem emitDiag_diag (s : State) : (emitDiag s).diag = s.diag ++ [⟨s.vOld, s.vCore, s.vSoc, s.vUv⟩] := rfl
@[simp] theorem emitDiag_rspOut (s : State) : (emitDiag s).rspOut = s.rspOut := rfl
@[simp] theorem emitDiag_port (s : State) : (emitDiag s).port = s.port := rfl
@[simp] theorem emitDiag_md (s : State) : (emitDiag s).md = s.md := rfl
@[simp] theorem emitDiag_mphase (s : State) : (emitDiag s).mphase = s.mphase := rfl
@[simp] theorem emitDiag_mopResult (s : State) : (emitDiag s).mopResult = s.mopResult := rfl
@[simp] theorem emitDiag_freeCtr (s : State) : (emitDiag s).freeCtr = s.freeCtr := rfl
@[simp] theorem emitDiag_sched (s : State) : (emitDiag s).sched = s.sched := rfl
@[simp] theorem emitDiag_cfg (s : State) : (emitDiag s).cfg = s.cfg := rfl

/-! ### accept -/

@[simp] theorem accept_st (op : BitVec 4) (arg : Word) (s : State) : (accept op arg s).st = .sEntry := rfl
@[simp] theorem accept_cmd (op : BitVec 4) (arg : Word) (s : State) : (accept op arg s).cmd = op := rfl
@[simp] theorem accept_arg (op : BitVec 4) (arg : Word) (s : State) : (accept op arg s).arg = arg := rfl
@[simp] theorem accept_opDiv (op : BitVec 4) (arg : Word) (s : State) : (accept op arg s).opDiv = s.opDiv := rfl
@[simp] theorem accept_opPodf (op : BitVec 4) (arg : Word) (s : State) : (accept op arg s).opPodf = s.opPodf := rfl
@[simp] theorem accept_opUv (op : BitVec 4) (arg : Word) (s : State) : (accept op arg s).opUv = s.opUv := rfl
@[simp] theorem accept_rdDiv (op : BitVec 4) (arg : Word) (s : State) : (accept op arg s).rdDiv = s.rdDiv := rfl
@[simp] theorem accept_rdPodf (op : BitVec 4) (arg : Word) (s : State) : (accept op arg s).rdPodf = s.rdPodf := rfl
@[simp] theorem accept_curHz (op : BitVec 4) (arg : Word) (s : State) : (accept op arg s).curHz = s.curHz := rfl
@[simp] theorem accept_inc (op : BitVec 4) (arg : Word) (s : State) : (accept op arg s).inc = s.inc := rfl
@[simp] theorem accept_vphase (op : BitVec 4) (arg : Word) (s : State) : (accept op arg s).vphase = s.vphase := rfl
@[simp] theorem accept_vUv (op : BitVec 4) (arg : Word) (s : State) : (accept op arg s).vUv = s.vUv := rfl
@[simp] theorem accept_vCore (op : BitVec 4) (arg : Word) (s : State) : (accept op arg s).vCore = s.vCore := rfl
@[simp] theorem accept_vOld (op : BitVec 4) (arg : Word) (s : State) : (accept op arg s).vOld = s.vOld := rfl
@[simp] theorem accept_vSoc (op : BitVec 4) (arg : Word) (s : State) : (accept op arg s).vSoc = s.vSoc := rfl
@[simp] theorem accept_tmp (op : BitVec 4) (arg : Word) (s : State) : (accept op arg s).tmp = s.tmp := rfl
@[simp] theorem accept_dly (op : BitVec 4) (arg : Word) (s : State) : (accept op arg s).dly = s.dly := rfl
@[simp] theorem accept_polls (op : BitVec 4) (arg : Word) (s : State) : (accept op arg s).polls = s.polls := rfl
@[simp] theorem accept_status (op : BitVec 4) (arg : Word) (s : State) : (accept op arg s).status = s.status := rfl
@[simp] theorem accept_rdata (op : BitVec 4) (arg : Word) (s : State) : (accept op arg s).rdata = 0#32 := rfl
@[simp] theorem accept_family (op : BitVec 4) (arg : Word) (s : State) : (accept op arg s).family = s.family := rfl
@[simp] theorem accept_pll (op : BitVec 4) (arg : Word) (s : State) : (accept op arg s).pll = s.pll := rfl
@[simp] theorem accept_pllLock (op : BitVec 4) (arg : Word) (s : State) : (accept op arg s).pllLock = s.pllLock := rfl
@[simp] theorem accept_cdiv (op : BitVec 4) (arg : Word) (s : State) : (accept op arg s).cdiv = s.cdiv := rfl
@[simp] theorem accept_vtarg (op : BitVec 4) (arg : Word) (s : State) : (accept op arg s).vtarg = s.vtarg := rfl
@[simp] theorem accept_railSettled (op : BitVec 4) (arg : Word) (s : State) : (accept op arg s).railSettled = s.railSettled := rfl
@[simp] theorem accept_bus (op : BitVec 4) (arg : Word) (s : State) : (accept op arg s).bus = s.bus := rfl
@[simp] theorem accept_rsp (op : BitVec 4) (arg : Word) (s : State) : (accept op arg s).rsp = s.rsp := rfl
@[simp] theorem accept_diag (op : BitVec 4) (arg : Word) (s : State) : (accept op arg s).diag = s.diag := rfl
@[simp] theorem accept_rspOut (op : BitVec 4) (arg : Word) (s : State) : (accept op arg s).rspOut = s.rspOut := rfl
@[simp] theorem accept_port (op : BitVec 4) (arg : Word) (s : State) : (accept op arg s).port = s.port := rfl
@[simp] theorem accept_md (op : BitVec 4) (arg : Word) (s : State) : (accept op arg s).md = s.md := rfl
@[simp] theorem accept_mphase (op : BitVec 4) (arg : Word) (s : State) : (accept op arg s).mphase = s.mphase := rfl
@[simp] theorem accept_mopResult (op : BitVec 4) (arg : Word) (s : State) : (accept op arg s).mopResult = s.mopResult := rfl
@[simp] theorem accept_freeCtr (op : BitVec 4) (arg : Word) (s : State) : (accept op arg s).freeCtr = s.freeCtr := rfl
@[simp] theorem accept_sched (op : BitVec 4) (arg : Word) (s : State) : (accept op arg s).sched = s.sched := rfl
@[simp] theorem accept_cfg (op : BitVec 4) (arg : Word) (s : State) : (accept op arg s).cfg = s.cfg := rfl

/-! ### finishMop -/

@[simp] theorem finishMop_st (s : State) : (finishMop s).st = s.st := rfl
@[simp] theorem finishMop_cmd (s : State) : (finishMop s).cmd = s.cmd := rfl
@[simp] theorem finishMop_arg (s : State) : (finishMop s).arg = s.arg := rfl
@[simp] theorem finishMop_opDiv (s : State) : (finishMop s).opDiv = s.opDiv := rfl
@[simp] theorem finishMop_opPodf (s : State) : (finishMop s).opPodf = s.opPodf := rfl
@[simp] theorem finishMop_opUv (s : State) : (finishMop s).opUv = s.opUv := rfl
@[simp] theorem finishMop_rdDiv (s : State) : (finishMop s).rdDiv = s.rdDiv := rfl
@[simp] theorem finishMop_rdPodf (s : State) : (finishMop s).rdPodf = s.rdPodf := rfl
@[simp] theorem finishMop_curHz (s : State) : (finishMop s).curHz = s.curHz := rfl
@[simp] theorem finishMop_inc (s : State) : (finishMop s).inc = s.inc := rfl
@[simp] theorem finishMop_vphase (s : State) : (finishMop s).vphase = s.vphase := rfl
@[simp] theorem finishMop_vUv (s : State) : (finishMop s).vUv = s.vUv := rfl
@[simp] theorem finishMop_vCore (s : State) : (finishMop s).vCore = s.vCore := rfl
@[simp] theorem finishMop_vOld (s : State) : (finishMop s).vOld = s.vOld := rfl
@[simp] theorem finishMop_vSoc (s : State) : (finishMop s).vSoc = s.vSoc := rfl
@[simp] theorem finishMop_tmp (s : State) : (finishMop s).tmp = s.tmp := rfl
@[simp] theorem finishMop_dly (s : State) : (finishMop s).dly = s.dly := rfl
@[simp] theorem finishMop_polls (s : State) : (finishMop s).polls = s.polls := rfl
@[simp] theorem finishMop_status (s : State) : (finishMop s).status = s.status := rfl
@[simp] theorem finishMop_rdata (s : State) : (finishMop s).rdata = s.rdata := rfl
@[simp] theorem finishMop_family (s : State) : (finishMop s).family = s.family := rfl
@[simp] theorem finishMop_pll (s : State) : (finishMop s).pll = s.pll := rfl
@[simp] theorem finishMop_pllLock (s : State) : (finishMop s).pllLock = s.pllLock := rfl
@[simp] theorem finishMop_cdiv (s : State) : (finishMop s).cdiv = s.cdiv := rfl
@[simp] theorem finishMop_vtarg (s : State) : (finishMop s).vtarg = s.vtarg := rfl
@[simp] theorem finishMop_railSettled (s : State) : (finishMop s).railSettled = s.railSettled := rfl
@[simp] theorem finishMop_bus (s : State) : (finishMop s).bus = s.bus := rfl
@[simp] theorem finishMop_rsp (s : State) : (finishMop s).rsp = s.rsp := rfl
@[simp] theorem finishMop_diag (s : State) : (finishMop s).diag = s.diag := rfl
@[simp] theorem finishMop_rspOut (s : State) : (finishMop s).rspOut = s.rspOut := rfl
@[simp] theorem finishMop_port (s : State) : (finishMop s).port = s.port := rfl
@[simp] theorem finishMop_md (s : State) : (finishMop s).md = none := rfl
@[simp] theorem finishMop_mphase (s : State) : (finishMop s).mphase = .first := rfl
@[simp] theorem finishMop_mopResult (s : State) : (finishMop s).mopResult = s.mopResult := rfl
@[simp] theorem finishMop_freeCtr (s : State) : (finishMop s).freeCtr = s.freeCtr := rfl
@[simp] theorem finishMop_sched (s : State) : (finishMop s).sched = s.sched := rfl
@[simp] theorem finishMop_cfg (s : State) : (finishMop s).cfg = s.cfg := rfl

/-! ### drawFor -/

@[simp] theorem drawFor_st (r : Reg) (s : State) : (drawFor r s).st = s.st := by cases r <;> rfl
@[simp] theorem drawFor_cmd (r : Reg) (s : State) : (drawFor r s).cmd = s.cmd := by cases r <;> rfl
@[simp] theorem drawFor_arg (r : Reg) (s : State) : (drawFor r s).arg = s.arg := by cases r <;> rfl
@[simp] theorem drawFor_opDiv (r : Reg) (s : State) : (drawFor r s).opDiv = s.opDiv := by cases r <;> rfl
@[simp] theorem drawFor_opPodf (r : Reg) (s : State) : (drawFor r s).opPodf = s.opPodf := by cases r <;> rfl
@[simp] theorem drawFor_opUv (r : Reg) (s : State) : (drawFor r s).opUv = s.opUv := by cases r <;> rfl
@[simp] theorem drawFor_rdDiv (r : Reg) (s : State) : (drawFor r s).rdDiv = s.rdDiv := by cases r <;> rfl
@[simp] theorem drawFor_rdPodf (r : Reg) (s : State) : (drawFor r s).rdPodf = s.rdPodf := by cases r <;> rfl
@[simp] theorem drawFor_curHz (r : Reg) (s : State) : (drawFor r s).curHz = s.curHz := by cases r <;> rfl
@[simp] theorem drawFor_inc (r : Reg) (s : State) : (drawFor r s).inc = s.inc := by cases r <;> rfl
@[simp] theorem drawFor_vphase (r : Reg) (s : State) : (drawFor r s).vphase = s.vphase := by cases r <;> rfl
@[simp] theorem drawFor_vUv (r : Reg) (s : State) : (drawFor r s).vUv = s.vUv := by cases r <;> rfl
@[simp] theorem drawFor_vCore (r : Reg) (s : State) : (drawFor r s).vCore = s.vCore := by cases r <;> rfl
@[simp] theorem drawFor_vOld (r : Reg) (s : State) : (drawFor r s).vOld = s.vOld := by cases r <;> rfl
@[simp] theorem drawFor_vSoc (r : Reg) (s : State) : (drawFor r s).vSoc = s.vSoc := by cases r <;> rfl
@[simp] theorem drawFor_tmp (r : Reg) (s : State) : (drawFor r s).tmp = s.tmp := by cases r <;> rfl
@[simp] theorem drawFor_dly (r : Reg) (s : State) : (drawFor r s).dly = s.dly := by cases r <;> rfl
@[simp] theorem drawFor_polls (r : Reg) (s : State) : (drawFor r s).polls = s.polls := by cases r <;> rfl
@[simp] theorem drawFor_status (r : Reg) (s : State) : (drawFor r s).status = s.status := by cases r <;> rfl
@[simp] theorem drawFor_rdata (r : Reg) (s : State) : (drawFor r s).rdata = s.rdata := by cases r <;> rfl
@[simp] theorem drawFor_family (r : Reg) (s : State) : (drawFor r s).family = s.family := by cases r <;> rfl
@[simp] theorem drawFor_pll (r : Reg) (s : State) : (drawFor r s).pll = s.pll := by cases r <;> rfl
@[simp] theorem drawFor_pllLock (r : Reg) (s : State) : (drawFor r s).pllLock = s.pllLock := by cases r <;> rfl
@[simp] theorem drawFor_cdiv (r : Reg) (s : State) : (drawFor r s).cdiv = s.cdiv := by cases r <;> rfl
@[simp] theorem drawFor_vtarg (r : Reg) (s : State) : (drawFor r s).vtarg = s.vtarg := by cases r <;> rfl
@[simp] theorem drawFor_railSettled (r : Reg) (s : State) : (drawFor r s).railSettled = s.railSettled := by cases r <;> rfl
@[simp] theorem drawFor_bus (r : Reg) (s : State) : (drawFor r s).bus = s.bus := by cases r <;> rfl
@[simp] theorem drawFor_rsp (r : Reg) (s : State) : (drawFor r s).rsp = s.rsp := by cases r <;> rfl
@[simp] theorem drawFor_diag (r : Reg) (s : State) : (drawFor r s).diag = s.diag := by cases r <;> rfl
@[simp] theorem drawFor_rspOut (r : Reg) (s : State) : (drawFor r s).rspOut = s.rspOut := by cases r <;> rfl
@[simp] theorem drawFor_port (r : Reg) (s : State) : (drawFor r s).port = s.port := by cases r <;> rfl
@[simp] theorem drawFor_md (r : Reg) (s : State) : (drawFor r s).md = s.md := by cases r <;> rfl
@[simp] theorem drawFor_mphase (r : Reg) (s : State) : (drawFor r s).mphase = s.mphase := by cases r <;> rfl
@[simp] theorem drawFor_mopResult (r : Reg) (s : State) : (drawFor r s).mopResult = s.mopResult := by cases r <;> rfl
@[simp] theorem drawFor_sched (r : Reg) (s : State) : (drawFor r s).sched = s.sched := by cases r <;> rfl
@[simp] theorem drawFor_cfg (r : Reg) (s : State) : (drawFor r s).cfg = s.cfg := by cases r <;> rfl

/-! ### dropPort -/

@[simp] theorem dropPort_st (s : State) : (dropPort s).st = s.st := rfl
@[simp] theorem dropPort_cmd (s : State) : (dropPort s).cmd = s.cmd := rfl
@[simp] theorem dropPort_arg (s : State) : (dropPort s).arg = s.arg := rfl
@[simp] theorem dropPort_opDiv (s : State) : (dropPort s).opDiv = s.opDiv := rfl
@[simp] theorem dropPort_opPodf (s : State) : (dropPort s).opPodf = s.opPodf := rfl
@[simp] theorem dropPort_opUv (s : State) : (dropPort s).opUv = s.opUv := rfl
@[simp] theorem dropPort_rdDiv (s : State) : (dropPort s).rdDiv = s.rdDiv := rfl
@[simp] theorem dropPort_rdPodf (s : State) : (dropPort s).rdPodf = s.rdPodf := rfl
@[simp] theorem dropPort_curHz (s : State) : (dropPort s).curHz = s.curHz := rfl
@[simp] theorem dropPort_inc (s : State) : (dropPort s).inc = s.inc := rfl
@[simp] theorem dropPort_vphase (s : State) : (dropPort s).vphase = s.vphase := rfl
@[simp] theorem dropPort_vUv (s : State) : (dropPort s).vUv = s.vUv := rfl
@[simp] theorem dropPort_vCore (s : State) : (dropPort s).vCore = s.vCore := rfl
@[simp] theorem dropPort_vOld (s : State) : (dropPort s).vOld = s.vOld := rfl
@[simp] theorem dropPort_vSoc (s : State) : (dropPort s).vSoc = s.vSoc := rfl
@[simp] theorem dropPort_tmp (s : State) : (dropPort s).tmp = s.tmp := rfl
@[simp] theorem dropPort_dly (s : State) : (dropPort s).dly = s.dly := rfl
@[simp] theorem dropPort_polls (s : State) : (dropPort s).polls = s.polls := rfl
@[simp] theorem dropPort_status (s : State) : (dropPort s).status = s.status := rfl
@[simp] theorem dropPort_rdata (s : State) : (dropPort s).rdata = s.rdata := rfl
@[simp] theorem dropPort_family (s : State) : (dropPort s).family = s.family := rfl
@[simp] theorem dropPort_pll (s : State) : (dropPort s).pll = s.pll := rfl
@[simp] theorem dropPort_pllLock (s : State) : (dropPort s).pllLock = s.pllLock := rfl
@[simp] theorem dropPort_cdiv (s : State) : (dropPort s).cdiv = s.cdiv := rfl
@[simp] theorem dropPort_vtarg (s : State) : (dropPort s).vtarg = s.vtarg := rfl
@[simp] theorem dropPort_railSettled (s : State) : (dropPort s).railSettled = s.railSettled := rfl
@[simp] theorem dropPort_bus (s : State) : (dropPort s).bus = s.bus := rfl
@[simp] theorem dropPort_rsp (s : State) : (dropPort s).rsp = s.rsp := rfl
@[simp] theorem dropPort_diag (s : State) : (dropPort s).diag = s.diag := rfl
@[simp] theorem dropPort_rspOut (s : State) : (dropPort s).rspOut = s.rspOut := rfl
@[simp] theorem dropPort_port (s : State) : (dropPort s).port = s.port.tail := rfl
@[simp] theorem dropPort_md (s : State) : (dropPort s).md = s.md := rfl
@[simp] theorem dropPort_mphase (s : State) : (dropPort s).mphase = s.mphase := rfl
@[simp] theorem dropPort_mopResult (s : State) : (dropPort s).mopResult = s.mopResult := rfl
@[simp] theorem dropPort_freeCtr (s : State) : (dropPort s).freeCtr = s.freeCtr := rfl
@[simp] theorem dropPort_sched (s : State) : (dropPort s).sched = s.sched := rfl
@[simp] theorem dropPort_cfg (s : State) : (dropPort s).cfg = s.cfg := rfl

/-! ### startMop -/

@[simp] theorem startMop_st (d : BitVec 25) (s : State) : (startMop d s).st = s.st := rfl
@[simp] theorem startMop_cmd (d : BitVec 25) (s : State) : (startMop d s).cmd = s.cmd := rfl
@[simp] theorem startMop_arg (d : BitVec 25) (s : State) : (startMop d s).arg = s.arg := rfl
@[simp] theorem startMop_opDiv (d : BitVec 25) (s : State) : (startMop d s).opDiv = s.opDiv := rfl
@[simp] theorem startMop_opPodf (d : BitVec 25) (s : State) : (startMop d s).opPodf = s.opPodf := rfl
@[simp] theorem startMop_opUv (d : BitVec 25) (s : State) : (startMop d s).opUv = s.opUv := rfl
@[simp] theorem startMop_rdDiv (d : BitVec 25) (s : State) : (startMop d s).rdDiv = s.rdDiv := rfl
@[simp] theorem startMop_rdPodf (d : BitVec 25) (s : State) : (startMop d s).rdPodf = s.rdPodf := rfl
@[simp] theorem startMop_curHz (d : BitVec 25) (s : State) : (startMop d s).curHz = s.curHz := rfl
@[simp] theorem startMop_inc (d : BitVec 25) (s : State) : (startMop d s).inc = s.inc := rfl
@[simp] theorem startMop_vphase (d : BitVec 25) (s : State) : (startMop d s).vphase = s.vphase := rfl
@[simp] theorem startMop_vUv (d : BitVec 25) (s : State) : (startMop d s).vUv = s.vUv := rfl
@[simp] theorem startMop_vCore (d : BitVec 25) (s : State) : (startMop d s).vCore = s.vCore := rfl
@[simp] theorem startMop_vOld (d : BitVec 25) (s : State) : (startMop d s).vOld = s.vOld := rfl
@[simp] theorem startMop_vSoc (d : BitVec 25) (s : State) : (startMop d s).vSoc = s.vSoc := rfl
@[simp] theorem startMop_tmp (d : BitVec 25) (s : State) : (startMop d s).tmp = s.tmp := rfl
@[simp] theorem startMop_dly (d : BitVec 25) (s : State) : (startMop d s).dly = s.dly := rfl
@[simp] theorem startMop_polls (d : BitVec 25) (s : State) : (startMop d s).polls = s.polls := rfl
@[simp] theorem startMop_status (d : BitVec 25) (s : State) : (startMop d s).status = s.status := rfl
@[simp] theorem startMop_rdata (d : BitVec 25) (s : State) : (startMop d s).rdata = s.rdata := rfl
@[simp] theorem startMop_family (d : BitVec 25) (s : State) : (startMop d s).family = s.family := rfl
@[simp] theorem startMop_pll (d : BitVec 25) (s : State) : (startMop d s).pll = s.pll := rfl
@[simp] theorem startMop_pllLock (d : BitVec 25) (s : State) : (startMop d s).pllLock = s.pllLock := rfl
@[simp] theorem startMop_cdiv (d : BitVec 25) (s : State) : (startMop d s).cdiv = s.cdiv := rfl
@[simp] theorem startMop_vtarg (d : BitVec 25) (s : State) : (startMop d s).vtarg = s.vtarg := rfl
@[simp] theorem startMop_railSettled (d : BitVec 25) (s : State) : (startMop d s).railSettled = s.railSettled := rfl
@[simp] theorem startMop_bus (d : BitVec 25) (s : State) : (startMop d s).bus = s.bus := rfl
@[simp] theorem startMop_rsp (d : BitVec 25) (s : State) : (startMop d s).rsp = s.rsp := rfl
@[simp] theorem startMop_diag (d : BitVec 25) (s : State) : (startMop d s).diag = s.diag := rfl
@[simp] theorem startMop_rspOut (d : BitVec 25) (s : State) : (startMop d s).rspOut = s.rspOut := rfl
@[simp] theorem startMop_port (d : BitVec 25) (s : State) : (startMop d s).port = s.port := rfl
@[simp] theorem startMop_md (d : BitVec 25) (s : State) : (startMop d s).md = some d := rfl
@[simp] theorem startMop_mphase (d : BitVec 25) (s : State) : (startMop d s).mphase = .first := rfl
@[simp] theorem startMop_mopResult (d : BitVec 25) (s : State) : (startMop d s).mopResult = s.mopResult := rfl
@[simp] theorem startMop_freeCtr (d : BitVec 25) (s : State) : (startMop d s).freeCtr = s.freeCtr := rfl
@[simp] theorem startMop_sched (d : BitVec 25) (s : State) : (startMop d s).sched = s.sched := rfl
@[simp] theorem startMop_cfg (d : BitVec 25) (s : State) : (startMop d s).cfg = s.cfg := rfl

/-! ### The register fields after a store and after a bus write -/

@[simp] theorem storeReg_pll_pll (w : Word) (s : State) : (storeReg .pll w s).pll = pllStored s.cfg w := rfl
@[simp] theorem storeReg_pll_pllLock (w : Word) (s : State) : (storeReg .pll w s).pllLock = (s.pllLock && decide (divOf s.cfg w = divOf s.cfg s.pll)) := rfl
@[simp] theorem storeReg_pll_cdiv (w : Word) (s : State) : (storeReg .pll w s).cdiv = s.cdiv := rfl
@[simp] theorem storeReg_pll_vtarg (w : Word) (s : State) : (storeReg .pll w s).vtarg = s.vtarg := rfl
@[simp] theorem storeReg_pll_railSettled (w : Word) (s : State) : (storeReg .pll w s).railSettled = s.railSettled := rfl
@[simp] theorem storeReg_cdiv_pll (w : Word) (s : State) : (storeReg .cdiv w s).pll = s.pll := rfl
@[simp] theorem storeReg_cdiv_pllLock (w : Word) (s : State) : (storeReg .cdiv w s).pllLock = s.pllLock := rfl
@[simp] theorem storeReg_cdiv_cdiv (w : Word) (s : State) : (storeReg .cdiv w s).cdiv = w := rfl
@[simp] theorem storeReg_cdiv_vtarg (w : Word) (s : State) : (storeReg .cdiv w s).vtarg = s.vtarg := rfl
@[simp] theorem storeReg_cdiv_railSettled (w : Word) (s : State) : (storeReg .cdiv w s).railSettled = s.railSettled := rfl
@[simp] theorem storeReg_vtarg_pll (w : Word) (s : State) : (storeReg .vtarg w s).pll = s.pll := rfl
@[simp] theorem storeReg_vtarg_pllLock (w : Word) (s : State) : (storeReg .vtarg w s).pllLock = s.pllLock := rfl
@[simp] theorem storeReg_vtarg_cdiv (w : Word) (s : State) : (storeReg .vtarg w s).cdiv = s.cdiv := rfl
@[simp] theorem storeReg_vtarg_vtarg (w : Word) (s : State) : (storeReg .vtarg w s).vtarg = w := rfl
@[simp] theorem storeReg_vtarg_railSettled (w : Word) (s : State) : (storeReg .vtarg w s).railSettled = (s.railSettled && decide (vcoreOf s.cfg w = vcoreOf s.cfg s.vtarg ∧ vsocOf s.cfg w = vsocOf s.cfg s.vtarg)) := rfl
@[simp] theorem memWrite_pll_pll (w : Word) (s : State) : (memWrite .pll w s).pll = pllStored s.cfg w := rfl
@[simp] theorem memWrite_pll_pllLock (w : Word) (s : State) : (memWrite .pll w s).pllLock = (s.pllLock && decide (divOf s.cfg w = divOf s.cfg s.pll)) := rfl
@[simp] theorem memWrite_pll_cdiv (w : Word) (s : State) : (memWrite .pll w s).cdiv = s.cdiv := rfl
@[simp] theorem memWrite_pll_vtarg (w : Word) (s : State) : (memWrite .pll w s).vtarg = s.vtarg := rfl
@[simp] theorem memWrite_pll_railSettled (w : Word) (s : State) : (memWrite .pll w s).railSettled = s.railSettled := rfl
@[simp] theorem memWrite_cdiv_pll (w : Word) (s : State) : (memWrite .cdiv w s).pll = s.pll := rfl
@[simp] theorem memWrite_cdiv_pllLock (w : Word) (s : State) : (memWrite .cdiv w s).pllLock = s.pllLock := rfl
@[simp] theorem memWrite_cdiv_cdiv (w : Word) (s : State) : (memWrite .cdiv w s).cdiv = w := rfl
@[simp] theorem memWrite_cdiv_vtarg (w : Word) (s : State) : (memWrite .cdiv w s).vtarg = s.vtarg := rfl
@[simp] theorem memWrite_cdiv_railSettled (w : Word) (s : State) : (memWrite .cdiv w s).railSettled = s.railSettled := rfl
@[simp] theorem memWrite_vtarg_pll (w : Word) (s : State) : (memWrite .vtarg w s).pll = s.pll := rfl
@[simp] theorem memWrite_vtarg_pllLock (w : Word) (s : State) : (memWrite .vtarg w s).pllLock = s.pllLock := rfl
@[simp] theorem memWrite_vtarg_cdiv (w : Word) (s : State) : (memWrite .vtarg w s).cdiv = s.cdiv := rfl
@[simp] theorem memWrite_vtarg_vtarg (w : Word) (s : State) : (memWrite .vtarg w s).vtarg = w := rfl
@[simp] theorem memWrite_vtarg_railSettled (w : Word) (s : State) : (memWrite .vtarg w s).railSettled = (s.railSettled && decide (vcoreOf s.cfg w = vcoreOf s.cfg s.vtarg ∧ vsocOf s.cfg w = vsocOf s.cfg s.vtarg)) := rfl

end Sys2Proof.Machine
end

