-- ==== Sys2Proof/Laws/Registers.lean ====
section
/-! SUPPORT. The named fields of PLL, CDIV and VTARG under well-formed parameters (00_scope.md R7): bit LOCK belongs to
no field, and each write of the sequencer changes its own field and no other. -/

namespace Sys2Proof.Machine

variable {c : Params}

theorem bitAt_lock_apart {b b' : BitVec 5} (h : b ≠ b') : bitAt b &&& bitAt b' = 0#32 := by
  have hn : b.toNat ≠ b'.toNat := fun e => h (BitVec.eq_of_toNat_eq e)
  apply BitVec.eq_of_getLsbD_eq; intro i _
  rw [BitVec.getLsbD_and, bitAt_getLsbD, bitAt_getLsbD]
  by_cases h1 : i = b.toNat <;> simp [h1, hn]

/-! ### Bit LOCK (20_memory.md R51, 45 R171) -/

@[simp] theorem pllStored_pllStored (w : Word) : pllStored c (pllStored c w) = pllStored c w := clearBit_clearBit _ _

theorem divOf_pllStored (h : c.WF) (w : Word) : divOf c (pllStored c w) = divOf c w :=
  field_clearBit_apart w h.divLockApart

theorem srcOf_pllStored (h : c.WF) (w : Word) : srcOf c (pllStored c w) = srcOf c w :=
  field_clearBit_apart w h.srcLockApart

theorem bypOf_pllStored (h : c.WF) (w : Word) : bypOf c (pllStored c w) = bypOf c w :=
  testBit_clearBit_apart w h.bypLockApart

/-- A PLL read, less bit LOCK, is what the PLL stores (45 R171). -/
theorem pllStored_busValue (s : State) : pllStored s.cfg (busValue .pll s) = pllStored s.cfg s.pll := by
  unfold busValue pllStored; cases s.pllLock <;> simp

/-- The poll sees exactly `pll_lock` (20_memory.md R47 (b)). -/
theorem lockSeen_busValue (s : State) : lockSeen s.cfg (busValue .pll s) = s.pllLock := by
  show testBit _ _ = _
  unfold busValue pllStored; cases s.pllLock <;> simp

theorem divOf_busValue (h : Params.WF s.cfg) : divOf s.cfg (busValue .pll s) = divOf s.cfg s.pll := by
  rw [← divOf_pllStored h, pllStored_busValue, divOf_pllStored h]

/-! ### The writes of PLL (44 R149, R151, R153, R157) -/

/-- What a read-modify-write of PLL starts from: TMP agrees with the register on every field. -/
theorem fields_of_tmp (h : c.WF) {tmp pll : Word} (e : pllStored c tmp = pll) :
    divOf c tmp = divOf c pll ∧ srcOf c tmp = srcOf c pll ∧ bypOf c tmp = bypOf c pll := by
  subst e; exact ⟨(divOf_pllStored h _).symm, (srcOf_pllStored h _).symm, (bypOf_pllStored h _).symm⟩

theorem divOf_insertSrc (h : c.WF) (w : Word) (v : BitVec 7) :
    divOf c (insertField w c.srcOff c.srcMask v) = divOf c w := field_insertField_apart w v h.divSrcApart

theorem bypOf_insertSrc (h : c.WF) (w : Word) (v : BitVec 7) :
    bypOf c (insertField w c.srcOff c.srcMask v) = bypOf c w := testBit_insertField_apart w v h.srcBypApart

theorem srcOf_insertOsc (h : c.WF) (w : Word) :
    srcOf c (insertField w c.srcOff c.srcMask c.srcOsc) = c.srcOsc := by
  rw [srcOf, field_insertField_same _ _ _ _ h.srcFits, h.oscFits]

theorem srcOf_insertDiv (h : c.WF) (w : Word) (v : BitVec 7) :
    srcOf c (insertField w c.divOff c.divMask v) = srcOf c w :=
  field_insertField_apart w v (by rw [BitVec.and_comm]; exact h.divSrcApart)

theorem bypOf_insertDiv (h : c.WF) (w : Word) (v : BitVec 7) :
    bypOf c (insertField w c.divOff c.divMask v) = bypOf c w := testBit_insertField_apart w v h.divBypApart

theorem divOf_insertDiv (h : c.WF) (w : Word) (v : BitVec 7) :
    divOf c (insertField w c.divOff c.divMask v) = v &&& c.divMask := field_insertField_same _ _ _ _ h.divFits

theorem divOf_setByp (h : c.WF) (w : Word) : divOf c (setBit w c.bypBit) = divOf c w :=
  field_setBit_apart w h.divBypApart

theorem srcOf_setByp (h : c.WF) (w : Word) : srcOf c (setBit w c.bypBit) = srcOf c w :=
  field_setBit_apart w h.srcBypApart

@[simp] theorem bypOf_setByp (w : Word) : bypOf c (setBit w c.bypBit) = true := testBit_setBit_same _ _

theorem divOf_clearByp (h : c.WF) (w : Word) : divOf c (clearBit w c.bypBit) = divOf c w :=
  field_clearBit_apart w h.divBypApart

theorem srcOf_clearByp (h : c.WF) (w : Word) : srcOf c (clearBit w c.bypBit) = srcOf c w :=
  field_clearBit_apart w h.srcBypApart

@[simp] theorem bypOf_clearByp (w : Word) : bypOf c (clearBit w c.bypBit) = false := testBit_clearBit_same _ _

/-! ### The write of CDIV (44 R159) -/

theorem podfOf_insertPodf (h : c.WF) (w : Word) (p : BitVec 3)
    (hp : p.setWidth 7 &&& c.podfMask = p.setWidth 7) :
    podfOf c (insertField w c.podfOff c.podfMask (p.setWidth 7)) = p := by
  rw [podfOf, field_insertField_same _ _ _ _ h.podfFits, hp]
  apply BitVec.eq_of_getLsbD_eq; intro i hi
  simp [hi]

/-! ### The write of VTARG (43 R126) -/

theorem setWidth_vcode (v : BitVec 5) : (v.setWidth 7 &&& Config.vcodeMask).setWidth 5 = v := by
  revert v; decide

theorem vcoreOf_withTargets (h : c.WF) (w : Word) (core soc : BitVec 5) :
    vcoreOf c (withTargets c w core soc) = core := by
  rw [vcoreOf, withTargets, field_insertField_apart _ _ h.targetsApart, field_insertField_same _ _ _ _ h.vcoreFits,
    setWidth_vcode]

theorem vsocOf_withTargets (h : c.WF) (w : Word) (core soc : BitVec 5) :
    vsocOf c (withTargets c w core soc) = soc := by
  rw [vsocOf, withTargets, field_insertField_same _ _ _ _ h.vsocFits, setWidth_vcode]

/-- R126 changes no bit outside the two target fields. -/
theorem withTargets_getLsbD_foreign (w : Word) (core soc : BitVec 5) (i : Nat)
    (hc : (fieldBits c.vcoreOff Config.vcodeMask).getLsbD i = false)
    (hs : (fieldBits c.vsocOff Config.vcodeMask).getLsbD i = false) :
    (withTargets c w core soc).getLsbD i = w.getLsbD i := by
  rw [withTargets, insertField_getLsbD, insertField_getLsbD, hc, hs]; simp

/-- A write of one register is not seen in another (20_memory.md R44, 40 R89 (c)). -/
theorem busValue_memWrite_other {r r' : Reg} (h : r' ≠ r) (w : Word) (s : State) :
    busValue r' (memWrite r w s) = busValue r' s := by
  cases r <;> cases r' <;> first | exact absurd rfl h | rfl

end Sys2Proof.Machine
end

