-- ==== Sys2Proof/Laws/Steps.lean ====
section
/-! SUPPORT. What one step can be: a command in flight takes the step of the rule `ST` selects, whatever its opcode; a
word at the port of a resting sequencer is taken; a stand-alone micro-operation goes on. One lemma for each, cited by
every later proof instead of unfolding `step`. -/

namespace Sys2Proof.Machine

/-- A command word runs `commandStep` on its opcode and operand, reserved opcodes included (30_encoding.md R63). -/
@[simp] theorem runWord_cmdWord (op : BitVec 4) (arg : Word) (s : State) :
    runWord (.cmd (cmdWord op arg)) s = commandStep op arg s := by
  rw [runWord, decode_cmdWord]
  by_cases h1 : op = opSetfreq
  · subst h1; rfl
  by_cases h2 : op = opRdfreq
  · subst h2; rfl
  by_cases h3 : op = opSetop
  · subst h3; rfl
  by_cases h4 : op = opLookup
  · subst h4; rfl
  · simp [h1, h2, h3, h4]

theorem runWord_cmd (cw : BitVec 36) (s : State) : runWord (.cmd cw) s = commandStep (cwOp cw) (cwArg cw) s := by
  rw [← runWord_cmdWord, cmdWord_fields]

theorem commandStep_idle {s : State} (h : s.st = .sIdle) (op : BitVec 4) (arg : Word) :
    commandStep op arg s = .next (accept op arg s) := if_pos h

theorem commandStep_busy {s : State} (h : s.st ≠ .sIdle) (op : BitVec 4) (arg : Word) :
    commandStep op arg s = ruleOf s := if_neg h

/-- The sequencer's turn with a command in flight: the rule `ST` selects (10_state.md R11). -/
theorem seqTurn_inFlight {s : State} (h : CommandInFlight s) : seqTurn s = ruleOf s := by
  obtain ⟨hm, hs⟩ := h
  simp [seqTurn, fetch, hm, hs, commandStep_busy hs]

/-- The sequencer's turn at rest: it waits, or takes the oldest word at the port (44 R141). -/
theorem seqTurn_atRest {s : State} (hm : s.md = none) (hs : s.st = .sIdle) :
    seqTurn s =
      match s.port with
      | [] => .next s
      | .cmd cw :: _ => .next (accept (cwOp cw) (cwArg cw) (dropPort s))
      | .mop d :: _ => runWord (.mop d) (startMop d (dropPort s)) := by
  have h3 : (dropPort s).st = .sIdle := hs
  unfold seqTurn fetch
  rw [hm, hs]
  rcases s.port with _ | ⟨cw | d, rest⟩
  · rfl
  · simp only [if_true]; rw [runWord_cmd, commandStep_idle h3]
  · rfl

/-- The sequencer's turn with a stand-alone micro-operation in flight: it goes on. -/
theorem seqTurn_mop {s : State} {d : BitVec 25} (hm : s.md = some d) : seqTurn s = runWord (.mop d) s := by
  simp [seqTurn, fetch, hm]

/-- The step of a command in flight, read at its instruction. -/
theorem exec_setfreq (hz : Word) (s : State) : exec (.setfreq hz) s = commandStep opSetfreq hz s := rfl

theorem exec_rdfreq (a : Word) (s : State) : exec (.rdfreq a) s = commandStep opRdfreq a s := rfl

theorem exec_setop (uv : Word) (s : State) : exec (.setop uv) s = commandStep opSetop uv s := rfl

theorem exec_lookup (hz : Word) (s : State) : exec (.lookup hz) s = commandStep opLookup hz s := rfl

/-- The register side of a step: no transaction, one read, or one write (00_scope.md R8). -/
inductive BusStep (s t : State) : Prop where
  | quiet (bus : t.bus = s.bus) (pll : t.pll = s.pll) (lock : t.pllLock = s.pllLock) (cdiv : t.cdiv = s.cdiv)
      (vtarg : t.vtarg = s.vtarg) (rail : t.railSettled = s.railSettled)
  | read (r : Reg) (bus : t.bus = s.bus ++ [.rd (addrOf s.cfg r) (busValue r s)]) (pll : t.pll = s.pll)
      (lock : t.pllLock = s.pllLock) (cdiv : t.cdiv = s.cdiv) (vtarg : t.vtarg = s.vtarg)
      (rail : t.railSettled = s.railSettled)
  | write (r : Reg) (w : Word) (bus : t.bus = s.bus ++ [.wr (addrOf s.cfg r) w])
      (pll : t.pll = (storeReg r w s).pll) (lock : t.pllLock = (storeReg r w s).pllLock)
      (cdiv : t.cdiv = (storeReg r w s).cdiv) (vtarg : t.vtarg = (storeReg r w s).vtarg)
      (rail : t.railSettled = (storeReg r w s).railSettled)

/-- PLL is written through the bus or not at all. -/
theorem BusStep.pll_cases {s t : State} (h : BusStep s t) : t.pll = s.pll ∨ ∃ w, t.pll = pllStored s.cfg w := by
  cases h with
  | quiet _ p => exact .inl p
  | read _ _ p => exact .inl p
  | write r w _ p =>
    cases r
    · exact .inr ⟨w, p⟩
    · exact .inl p
    · exact .inl p

/-- What any decoded micro-operation can do, said once: it is a register access `f` with the sequencer's own latches,
ports and parameters left alone. -/
structure MopFrame (s t : State) : Prop where
  st : t.st = s.st
  cmd : t.cmd = s.cmd
  vphase : t.vphase = s.vphase
  cfg : t.cfg = s.cfg
  family : t.family = s.family
  sched : t.sched = s.sched
  port : t.port = s.port
  rsp : t.rsp = s.rsp
  rspOut : t.rspOut = s.rspOut
  diag : t.diag = s.diag
  /-- At most one bus transaction. -/
  bus : BusStep s t
  /-- It goes on or is over. -/
  md : t.md = s.md ∨ (t.md = none ∧ t.mphase = .first)

end Sys2Proof.Machine
end

