-- ==== Sys2Proof/Laws/MicroOps.lean ====
section
/-! SUPPORT. What a stand-alone micro-operation can do, said once for all nine (40_register_primitives.md R89): it
always answers a next state, and leaves the sequencer, the strap, the parameters, the ports and the response and
diagnostic traces alone. -/

namespace Sys2Proof.Machine

/-- The instruction is a micro-operation (30_encoding.md R65). -/
def IsMop : Instr → Prop
  | .setfreq _ => False
  | .rdfreq _ => False
  | .setop _ => False
  | .lookup _ => False
  | .get _ _ _ => True
  | .set _ _ => True
  | .clear _ _ => True
  | .setfield _ _ _ _ => True
  | .clearfield _ _ _ => True
  | .waituntil _ _ _ _ => True
  | .read _ => True
  | .write _ => True
  | .delay => True

/-- The kinds that name a register decode to a micro-operation or are reserved (R65). -/
theorem decodeKind_cases (d : BitVec 25) (r : Reg) :
    (∃ i, decodeKind d r = .ok i ∧ IsMop i) ∨ decodeKind d r = .error (.reservedKind (mdKind d)) := by
  unfold decodeKind
  by_cases h0 : mdKind d = kGet
  · rw [if_pos h0]; exact .inl ⟨_, rfl, trivial⟩
  by_cases h1 : mdKind d = kSet
  · rw [if_neg h0, if_pos h1]; exact .inl ⟨_, rfl, trivial⟩
  by_cases h2 : mdKind d = kClear
  · rw [if_neg h0, if_neg h1, if_pos h2]; exact .inl ⟨_, rfl, trivial⟩
  by_cases h3 : mdKind d = kSetfield
  · rw [if_neg h0, if_neg h1, if_neg h2, if_pos h3]; exact .inl ⟨_, rfl, trivial⟩
  by_cases h4 : mdKind d = kClearfield
  · rw [if_neg h0, if_neg h1, if_neg h2, if_neg h3, if_pos h4]; exact .inl ⟨_, rfl, trivial⟩
  by_cases h5 : mdKind d = kWaituntil
  · rw [if_neg h0, if_neg h1, if_neg h2, if_neg h3, if_neg h4, if_pos h5]; exact .inl ⟨_, rfl, trivial⟩
  by_cases h6 : mdKind d = kRead
  · rw [if_neg h0, if_neg h1, if_neg h2, if_neg h3, if_neg h4, if_neg h5, if_pos h6]; exact .inl ⟨_, rfl, trivial⟩
  rw [if_neg h0, if_neg h1, if_neg h2, if_neg h3, if_neg h4, if_neg h5, if_neg h6]
  by_cases h7 : mdKind d = kWrite
  · rw [if_pos h7]; exact .inl ⟨_, rfl, trivial⟩
  · rw [if_neg h7]; exact .inr rfl

/-- A descriptor decodes to a micro-operation, or is refused for its kind or its register (R64, R65). -/
theorem decode_mop_cases (d : BitVec 25) :
    (∃ i, decode (.mop d) = .ok i ∧ IsMop i) ∨ (∃ k, decode (.mop d) = .error (.reservedKind k)) ∨
      decode (.mop d) = .error .reservedReg := by
  rw [show decode (.mop d) = decodeMop d from rfl]
  unfold decodeMop
  by_cases h0 : mdKind d = kDelay
  · rw [if_pos h0]; exact .inl ⟨_, rfl, trivial⟩
  by_cases h1 : mdKind d > kDelay
  · rw [if_neg h0, if_pos h1]; exact .inr (.inl ⟨_, rfl⟩)
  rw [if_neg h0, if_neg h1]
  rcases regOfCode (mdReg d) with _ | r
  · exact .inr (.inr rfl)
  · rcases decodeKind_cases d r with h | h
    · exact .inl h
    · exact .inr (.inl ⟨_, h⟩)

/-- Ending a micro-operation changes no register. -/
@[simp] theorem busValue_finishMop (r : Reg) (s : State) : busValue r (finishMop s) = busValue r s := by cases r <;> rfl

/-- Drawing a free value changes no register. -/
@[simp] theorem busValue_drawFor (r r' : Reg) (s : State) : busValue r (drawFor r' s) = busValue r s := by
  cases r <;> cases r' <;> rfl

theorem busStep_refl (s : State) : BusStep s s := .quiet rfl rfl rfl rfl rfl rfl

theorem mopFrame_rmwStep (r : Reg) (f : Word → Word) (s : State) : MopFrame s (rmwStep r f s) := by
  unfold rmwStep
  split
  · exact ⟨rfl, rfl, rfl, rfl, rfl, rfl, rfl, rfl, rfl, rfl, .read r rfl rfl rfl rfl rfl rfl, .inl rfl⟩
  · constructor
    case bus => exact .write r _ rfl rfl rfl rfl rfl rfl
    case md => exact .inr ⟨rfl, rfl⟩
    all_goals simp

theorem mopFrame_write (r : Reg) (s : State) :
    MopFrame s (finishMop (drawFor r (memWrite r (writeData r s) s))) := by
  constructor
  case bus => exact .write r (writeData r s) (by simp [memWrite]) (by simp [memWrite]) (by simp [memWrite]) (by simp [memWrite]) (by simp [memWrite]) (by simp [memWrite])
  case md => exact .inr ⟨rfl, rfl⟩
  all_goals simp

/-- Every micro-operation completes its step. -/
theorem exec_mop {i : Instr} (hi : IsMop i) (s : State) : ∃ t, exec i s = .next t ∧ MopFrame s t := by
  cases i with
  | setfreq => exact hi.elim
  | rdfreq => exact hi.elim
  | setop => exact hi.elim
  | lookup => exact hi.elim
  | get r off mask =>
    exact ⟨_, rfl, rfl, rfl, rfl, rfl, rfl, rfl, rfl, rfl, rfl, rfl, .read _ rfl rfl rfl rfl rfl rfl, .inr ⟨rfl, rfl⟩⟩
  | set r bit => exact ⟨_, rfl, mopFrame_rmwStep _ _ _⟩
  | clear r bit => exact ⟨_, rfl, mopFrame_rmwStep _ _ _⟩
  | setfield r off mask val => exact ⟨_, rfl, mopFrame_rmwStep _ _ _⟩
  | clearfield r off mask => exact ⟨_, rfl, mopFrame_rmwStep _ _ _⟩
  | waituntil r off mask e =>
    refine ⟨_, rfl, ?_⟩
    split
    · exact ⟨rfl, rfl, rfl, rfl, rfl, rfl, rfl, rfl, rfl, rfl, .read _ rfl rfl rfl rfl rfl rfl, .inr ⟨rfl, rfl⟩⟩
    · exact ⟨rfl, rfl, rfl, rfl, rfl, rfl, rfl, rfl, rfl, rfl, .read _ rfl rfl rfl rfl rfl rfl, .inl rfl⟩
  | read r => exact ⟨_, rfl, rfl, rfl, rfl, rfl, rfl, rfl, rfl, rfl, rfl, rfl, .read _ rfl rfl rfl rfl rfl rfl, .inr ⟨rfl, rfl⟩⟩
  | write r =>
    exact ⟨_, rfl, mopFrame_write _ _⟩
  | delay =>
    refine ⟨_, rfl, ?_⟩
    split
    · exact ⟨rfl, rfl, rfl, rfl, rfl, rfl, rfl, rfl, rfl, rfl, .quiet rfl rfl rfl rfl rfl rfl, .inl rfl⟩
    · split
      · exact ⟨rfl, rfl, rfl, rfl, rfl, rfl, rfl, rfl, rfl, rfl, .quiet rfl rfl rfl rfl rfl rfl, .inr ⟨rfl, rfl⟩⟩
      · exact ⟨rfl, rfl, rfl, rfl, rfl, rfl, rfl, rfl, rfl, rfl, .quiet rfl rfl rfl rfl rfl rfl, .inl rfl⟩

/-- The step of a descriptor: refused as reserved, or a micro-operation's. -/
theorem runWord_mop (d : BitVec 25) (s : State) :
    runWord (.mop d) s = .refused .reservedDescriptor ∨ ∃ t, runWord (.mop d) s = .next t ∧ MopFrame s t := by
  rcases decode_mop_cases d with ⟨i, hd, hi⟩ | ⟨k, hd⟩ | hd <;> (unfold runWord; rw [hd])
  · exact .inr (exec_mop hi s)
  · exact .inl rfl
  · exact .inl rfl

end Sys2Proof.Machine
end

