-- ==== Sys2Proof/Laws/PerInstr.lean ====
section
/-! SUPPORT. Per instruction: the encoding of every instruction lies in its row of spec/opcode_table.json, that is, under
the row's mask its word is the row's match (30_encoding.md R60, R61, R64, R65). -/

namespace Sys2Proof.Laws.EncodingMatchesTable

/-- The word's bits under a row's mask are the row's match, in the row's format. -/
def InRow (w : FetchWord) (isCmd : Bool) (matchBits mask : Nat) : Prop :=
  match w with
  | .cmd cw => isCmd = true ∧ cw &&& BitVec.ofNat 36 mask = BitVec.ofNat 36 matchBits
  | .mop md => isCmd = false ∧ md &&& BitVec.ofNat 25 mask = BitVec.ofNat 25 matchBits

/-- Each instruction's row, as the opcode table gives its match and mask. -/
def Statement (i : Instr) : Prop :=
  match i with
  | .setfreq _ => InRow (encode i) true 0x100000000 0xF00000000
  | .rdfreq _ => InRow (encode i) true 0x200000000 0xF00000000
  | .setop _ => InRow (encode i) true 0x300000000 0xF00000000
  | .lookup _ => InRow (encode i) true 0x400000000 0xF00000000
  | .get _ _ _ => InRow (encode i) false 0x0000000 0x1E00000
  | .set _ _ => InRow (encode i) false 0x0200000 0x1E00000
  | .clear _ _ => InRow (encode i) false 0x0400000 0x1E00000
  | .setfield _ _ _ _ => InRow (encode i) false 0x0600000 0x1E00000
  | .clearfield _ _ _ => InRow (encode i) false 0x0800000 0x1E00000
  | .waituntil _ _ _ _ => InRow (encode i) false 0x0A00000 0x1E00000
  | .read _ => InRow (encode i) false 0x0C00000 0x1E00000
  | .write _ => InRow (encode i) false 0x0E00000 0x1E00000
  | .delay => InRow (encode i) false 0x1000000 0x1E00000

/-- The opcode mask of a command word keeps its opcode and nothing else. -/
theorem cmdWord_masked (op : BitVec 4) (arg : Word) :
    cmdWord op arg &&& 0xF00000000#36 = op ++ (0#32) := by
  have h : (0xF00000000#36) = (0xF#4) ++ (0#32) := by decide
  have e : cmdWord op arg &&& 0xF00000000#36 = (op &&& 0xF#4) ++ (arg &&& 0#32) := by
    rw [h]; exact BitVec.and_append
  rw [e, BitVec.and_zero]
  congr 1
  exact BitVec.and_allOnes

/-- The kind mask of a descriptor keeps its kind and nothing else. -/
theorem mopWord_masked (kind : BitVec 4) (reg : BitVec 2) (off : BitVec 5) (mask val : BitVec 7) :
    mopWord kind reg off mask val &&& 0x1E00000#25 = kind ++ 0#2 ++ 0#5 ++ 0#7 ++ 0#7 := by
  have h : (0x1E00000#25) = (0xF#4) ++ 0#2 ++ 0#5 ++ 0#7 ++ 0#7 := by decide
  have e : mopWord kind reg off mask val &&& 0x1E00000#25 =
      (kind &&& 0xF#4) ++ (reg &&& 0#2) ++ (off &&& 0#5) ++ (mask &&& 0#7) ++ (val &&& 0#7) := by
    rw [h]
    refine BitVec.and_append.trans (congrArg (· ++ (val &&& 0#7)) ?_)
    refine BitVec.and_append.trans (congrArg (· ++ (mask &&& 0#7)) ?_)
    exact BitVec.and_append.trans (congrArg (· ++ (off &&& 0#5)) BitVec.and_append)
  rw [e]
  simp only [BitVec.and_zero]
  rw [show kind &&& 0xF#4 = kind from BitVec.and_allOnes]

theorem setfreq (hz : Word) : Statement (.setfreq hz) := ⟨rfl, by rw [cmdWord_masked]; decide⟩

theorem rdfreq (ignored : Word) : Statement (.rdfreq ignored) := ⟨rfl, by rw [cmdWord_masked]; decide⟩

theorem setop (uv : Word) : Statement (.setop uv) := ⟨rfl, by rw [cmdWord_masked]; decide⟩

theorem lookup (hz : Word) : Statement (.lookup hz) := ⟨rfl, by rw [cmdWord_masked]; decide⟩

theorem get (r : Reg) (off : BitVec 5) (mask : BitVec 7) : Statement (.get r off mask) :=
  ⟨rfl, by rw [mopWord_masked]; decide⟩

theorem set (r : Reg) (bit : BitVec 5) : Statement (.set r bit) := ⟨rfl, by rw [mopWord_masked]; decide⟩

theorem clear (r : Reg) (bit : BitVec 5) : Statement (.clear r bit) := ⟨rfl, by rw [mopWord_masked]; decide⟩

theorem setfield (r : Reg) (off : BitVec 5) (mask val : BitVec 7) : Statement (.setfield r off mask val) :=
  ⟨rfl, by rw [mopWord_masked]; decide⟩

theorem clearfield (r : Reg) (off : BitVec 5) (mask : BitVec 7) : Statement (.clearfield r off mask) :=
  ⟨rfl, by rw [mopWord_masked]; decide⟩

theorem waituntil (r : Reg) (off : BitVec 5) (mask expected : BitVec 7) :
    Statement (.waituntil r off mask expected) := ⟨rfl, by rw [mopWord_masked]; decide⟩

theorem read (r : Reg) : Statement (.read r) := ⟨rfl, by rw [mopWord_masked]; decide⟩

theorem write (r : Reg) : Statement (.write r) := ⟨rfl, by rw [mopWord_masked]; decide⟩

theorem delay : Statement .delay := ⟨rfl, by rw [mopWord_masked]; decide⟩

end Sys2Proof.Laws.EncodingMatchesTable
end

