-- ==== Sys2Proof/Laws/Rules.lean ====
section
/-! SUPPORT. What a rule of the sequencer can do, said once for all 24 states: the parameters, the strap, the port, the
schedule and the micro-operation fields are left alone; there is at most one bus transaction, and the registers are
those of that transaction; a response is emitted only by S_RESPOND, a diagnostic event only by S_V_DIAG. -/

namespace Sys2Proof.Machine

/-- What a rule leaves alone, and how it touches the bus. -/
structure RuleFrame (s t : State) : Prop where
  cfg : t.cfg = s.cfg
  family : t.family = s.family
  port : t.port = s.port
  sched : t.sched = s.sched
  md : t.md = s.md
  mphase : t.mphase = s.mphase
  busStep : BusStep s t

variable {s t : State}

theorem ruleFrame_quiet (h1 : t.cfg = s.cfg) (h2 : t.family = s.family) (h3 : t.port = s.port)
    (h4 : t.sched = s.sched) (h5 : t.md = s.md) (h6 : t.mphase = s.mphase) (b : t.bus = s.bus) (p : t.pll = s.pll)
    (l : t.pllLock = s.pllLock) (c : t.cdiv = s.cdiv) (v : t.vtarg = s.vtarg) (r : t.railSettled = s.railSettled) :
    RuleFrame s t := ⟨h1, h2, h3, h4, h5, h6, .quiet b p l c v r⟩

/-- A rule that performs no transaction and leaves the frame's fields as they are, by computation. -/
theorem ruleFrame_of_updates (h : RuleFrame s t) {u : State} (h1 : u.cfg = t.cfg) (h2 : u.family = t.family)
    (h3 : u.port = t.port) (h4 : u.sched = t.sched) (h5 : u.md = t.md) (h6 : u.mphase = t.mphase)
    (b : u.bus = t.bus) (p : u.pll = t.pll) (l : u.pllLock = t.pllLock) (c : u.cdiv = t.cdiv) (v : u.vtarg = t.vtarg)
    (r : u.railSettled = t.railSettled) : RuleFrame s u := by
  obtain ⟨a1, a2, a3, a4, a5, a6, hb⟩ := h
  refine ⟨h1.trans a1, h2.trans a2, h3.trans a3, h4.trans a4, h5.trans a5, h6.trans a6, ?_⟩
  cases hb with
  | quiet b' p' l' c' v' r' =>
    exact .quiet (b.trans b') (p.trans p') (l.trans l') (c.trans c') (v.trans v') (r.trans r')
  | read x b' p' l' c' v' r' =>
    exact .read x (b.trans b') (p.trans p') (l.trans l') (c.trans c') (v.trans v') (r.trans r')
  | write x w b' p' l' c' v' r' =>
    exact .write x w (b.trans b') (p.trans p') (l.trans l') (c.trans c') (v.trans v') (r.trans r')

theorem ruleFrame_refl (s : State) : RuleFrame s s := ruleFrame_quiet rfl rfl rfl rfl rfl rfl rfl rfl rfl rfl rfl rfl

theorem ruleFrame_afterRead (r : Reg) (s : State) : RuleFrame s (afterRead r s) :=
  ⟨rfl, rfl, rfl, rfl, rfl, rfl, .read r rfl rfl rfl rfl rfl rfl⟩

theorem ruleFrame_memWrite (r : Reg) (w : Word) (s : State) : RuleFrame s (memWrite r w s) :=
  ⟨by simp, by simp, by simp, by simp, by simp, by simp, .write r w rfl rfl rfl rfl rfl rfl⟩

theorem ruleFrame_vReturn {u : State} (hu : RuleFrame s u) (h : vReturn u = .next t) : RuleFrame s t := by
  unfold vReturn at h
  split at h <;> cases h <;> exact ruleFrame_of_updates hu rfl rfl rfl rfl rfl rfl rfl rfl rfl rfl rfl rfl

/-- Every rule has the frame. -/
theorem ruleFrame_ruleOf (h : ruleOf s = .next t) : RuleFrame s t := by
  have base := ruleFrame_refl s
  unfold ruleOf at h
  split at h
  · cases h; exact base
  · cases h
    unfold ruleEntry
    split
    · split <;> exact ruleFrame_of_updates base rfl rfl rfl rfl rfl rfl rfl rfl rfl rfl rfl rfl
    · split
      · split <;> exact ruleFrame_of_updates base rfl rfl rfl rfl rfl rfl rfl rfl rfl rfl rfl rfl
      · split <;> exact ruleFrame_of_updates base rfl rfl rfl rfl rfl rfl rfl rfl rfl rfl rfl rfl
  · unfold ruleLookup at h
    split at h
    · split at h <;> cases h
      · exact ruleFrame_of_updates base rfl rfl rfl rfl rfl rfl rfl rfl rfl rfl rfl rfl
      · unfold lookupFound
        split <;> exact ruleFrame_of_updates base rfl rfl rfl rfl rfl rfl rfl rfl rfl rfl rfl rfl
    · cases h
  · cases h
    exact ruleFrame_of_updates (ruleFrame_afterRead .pll s) rfl rfl rfl rfl rfl rfl rfl rfl rfl rfl rfl rfl
  · cases h
    have hr : RuleFrame s (readPodf s) :=
      ruleFrame_of_updates (ruleFrame_afterRead .cdiv s) rfl rfl rfl rfl rfl rfl rfl rfl rfl rfl rfl rfl
    unfold ruleRdPodf compareAndDirect preRaise
    repeat' split
    all_goals exact ruleFrame_of_updates hr rfl rfl rfl rfl rfl rfl rfl rfl rfl rfl rfl rfl
  · cases h; exact ruleFrame_of_updates base rfl rfl rfl rfl rfl rfl rfl rfl rfl rfl rfl rfl
  · unfold ruleVRdCur at h
    split at h
    · refine ruleFrame_vReturn ?_ h
      exact ruleFrame_of_updates (ruleFrame_afterRead .vtarg s) rfl rfl rfl rfl rfl rfl rfl rfl rfl rfl rfl rfl
    · cases h
      exact ruleFrame_of_updates (ruleFrame_afterRead .vtarg s) rfl rfl rfl rfl rfl rfl rfl rfl rfl rfl rfl rfl
  · cases h
    exact ruleFrame_of_updates (ruleFrame_afterRead .vtarg s) rfl rfl rfl rfl rfl rfl rfl rfl rfl rfl rfl rfl
  · cases h
    exact ruleFrame_of_updates (ruleFrame_memWrite .vtarg _ s) rfl rfl rfl rfl rfl rfl rfl rfl rfl rfl rfl rfl
  · cases h
    unfold ruleVSettle
    split <;> exact ruleFrame_of_updates base rfl rfl rfl rfl rfl rfl rfl rfl rfl rfl rfl rfl
  · refine ruleFrame_vReturn ?_ h
    exact ruleFrame_of_updates base rfl rfl rfl rfl rfl rfl rfl rfl rfl rfl rfl rfl
  · cases h
    exact ruleFrame_of_updates (ruleFrame_afterRead .pll s) rfl rfl rfl rfl rfl rfl rfl rfl rfl rfl rfl rfl
  · cases h
    exact ruleFrame_of_updates (ruleFrame_memWrite .pll _ s) rfl rfl rfl rfl rfl rfl rfl rfl rfl rfl rfl rfl
  · cases h
    exact ruleFrame_of_updates (ruleFrame_afterRead .pll s) rfl rfl rfl rfl rfl rfl rfl rfl rfl rfl rfl rfl
  · cases h
    exact ruleFrame_of_updates (ruleFrame_memWrite .pll _ s) rfl rfl rfl rfl rfl rfl rfl rfl rfl rfl rfl rfl
  · cases h
    exact ruleFrame_of_updates (ruleFrame_afterRead .pll s) rfl rfl rfl rfl rfl rfl rfl rfl rfl rfl rfl rfl
  · cases h
    unfold ruleDivselWr startPolls
    split <;> exact ruleFrame_of_updates (ruleFrame_memWrite .pll _ s) rfl rfl rfl rfl rfl rfl rfl rfl rfl rfl rfl rfl
  · cases h
    unfold ruleWaitLock pollFailed
    repeat' split
    all_goals exact ruleFrame_of_updates (ruleFrame_afterRead .pll s) rfl rfl rfl rfl rfl rfl rfl rfl rfl rfl rfl rfl
  · cases h
    exact ruleFrame_of_updates (ruleFrame_afterRead .pll s) rfl rfl rfl rfl rfl rfl rfl rfl rfl rfl rfl rfl
  · cases h
    exact ruleFrame_of_updates (ruleFrame_memWrite .pll _ s) rfl rfl rfl rfl rfl rfl rfl rfl rfl rfl rfl rfl
  · cases h
    exact ruleFrame_of_updates (ruleFrame_afterRead .cdiv s) rfl rfl rfl rfl rfl rfl rfl rfl rfl rfl rfl rfl
  · cases h
    exact ruleFrame_of_updates (ruleFrame_memWrite .cdiv _ s) rfl rfl rfl rfl rfl rfl rfl rfl rfl rfl rfl rfl
  · cases h
    unfold rulePost
    split <;> exact ruleFrame_of_updates base rfl rfl rfl rfl rfl rfl rfl rfl rfl rfl rfl rfl
  · cases h; exact ruleFrame_of_updates base rfl rfl rfl rfl rfl rfl rfl rfl rfl rfl rfl rfl

end Sys2Proof.Machine
end

