-- ==== Sys2Proof/Laws/Runs.lean ====
section
/-! SUPPORT. How steps compose into runs: the sequencer's turn of a step, a command in flight at each of its states, and
`execTimes` over one instruction. Every whole-command proof cites these instead of unfolding `exec`. -/

namespace Sys2Proof.Machine

variable {s t : State}

/-- On the sequencer's turn a step is its turn, with the schedule advanced. -/
theorem step_of_sequencerMoves (h : SequencerMoves s) : step s = seqTurn { s with sched := s.sched.tail } := by
  unfold step takeTurn
  rcases h with h | ⟨r, h⟩ <;> rw [h]
  · show seqTurn s = seqTurn { s with sched := ([] : List Move) }
    rw [← h]
  · rfl

/-- A command in flight takes the step of the rule `ST` selects, whichever command it is (10_state.md R11). -/
theorem exec_busy {i : Instr} (hi : isCommand i = true) (hs : s.st ≠ .sIdle) : exec i s = ruleOf s := by
  cases i <;> first | exact commandStep_busy hs _ _ | cases hi

/-! ### The rule of each state (30_encoding.md R69) -/

theorem ruleOf_sEntry (h : s.st = .sEntry) : ruleOf s = .next (ruleEntry s) := by unfold ruleOf; rw [h]

theorem ruleOf_sLookup (h : s.st = .sLookup) : ruleOf s = ruleLookup s := by unfold ruleOf; rw [h]

theorem ruleOf_sRdDiv (h : s.st = .sRdDiv) : ruleOf s = .next (ruleRdDiv s) := by unfold ruleOf; rw [h]

theorem ruleOf_sRdPodf (h : s.st = .sRdPodf) : ruleOf s = .next (ruleRdPodf s) := by unfold ruleOf; rw [h]

theorem ruleOf_sVQuant (h : s.st = .sVQuant) : ruleOf s = .next (ruleVQuant s) := by unfold ruleOf; rw [h]

theorem ruleOf_sVRdCur (h : s.st = .sVRdCur) : ruleOf s = ruleVRdCur s := by unfold ruleOf; rw [h]

theorem ruleOf_sVRmwRd (h : s.st = .sVRmwRd) : ruleOf s = .next (ruleVRmwRd s) := by unfold ruleOf; rw [h]

theorem ruleOf_sVRmwWr (h : s.st = .sVRmwWr) : ruleOf s = .next (ruleVRmwWr s) := by unfold ruleOf; rw [h]

theorem ruleOf_sVSettle (h : s.st = .sVSettle) : ruleOf s = .next (ruleVSettle s) := by unfold ruleOf; rw [h]

theorem ruleOf_sVDiag (h : s.st = .sVDiag) : ruleOf s = ruleVDiag s := by unfold ruleOf; rw [h]

theorem ruleOf_sBypsrcRd (h : s.st = .sBypsrcRd) : ruleOf s = .next (ruleBypsrcRd s) := by unfold ruleOf; rw [h]

theorem ruleOf_sBypsrcWr (h : s.st = .sBypsrcWr) : ruleOf s = .next (ruleBypsrcWr s) := by unfold ruleOf; rw [h]

theorem ruleOf_sBypsetRd (h : s.st = .sBypsetRd) : ruleOf s = .next (ruleBypsetRd s) := by unfold ruleOf; rw [h]

theorem ruleOf_sBypsetWr (h : s.st = .sBypsetWr) : ruleOf s = .next (ruleBypsetWr s) := by unfold ruleOf; rw [h]

theorem ruleOf_sDivselRd (h : s.st = .sDivselRd) : ruleOf s = .next (ruleDivselRd s) := by unfold ruleOf; rw [h]

theorem ruleOf_sDivselWr (h : s.st = .sDivselWr) : ruleOf s = .next (ruleDivselWr s) := by unfold ruleOf; rw [h]

theorem ruleOf_sWaitLock (h : s.st = .sWaitLock) : ruleOf s = .next (ruleWaitLock s) := by unfold ruleOf; rw [h]

theorem ruleOf_sUnbypRd (h : s.st = .sUnbypRd) : ruleOf s = .next (ruleUnbypRd s) := by unfold ruleOf; rw [h]

theorem ruleOf_sUnbypWr (h : s.st = .sUnbypWr) : ruleOf s = .next (ruleUnbypWr s) := by unfold ruleOf; rw [h]

theorem ruleOf_sPodfRd (h : s.st = .sPodfRd) : ruleOf s = .next (rulePodfRd s) := by unfold ruleOf; rw [h]

theorem ruleOf_sPodfWr (h : s.st = .sPodfWr) : ruleOf s = .next (rulePodfWr s) := by unfold ruleOf; rw [h]

theorem ruleOf_sPost (h : s.st = .sPost) : ruleOf s = .next (rulePost s) := by unfold ruleOf; rw [h]

theorem ruleOf_sRespond (h : s.st = .sRespond) : ruleOf s = .next (respond s) := by unfold ruleOf; rw [h]

/-! ### Runs of one instruction -/

@[simp] theorem execTimes_zero (i : Instr) (s : State) : execTimes i 0 s = .next s := rfl

theorem execTimes_succ {i : Instr} (n : Nat) (h : exec i s = .next t) : execTimes i (n + 1) s = execTimes i n t := by
  rw [execTimes, h]

/-- Runs concatenate. -/
theorem execTimes_add {i : Instr} {m : Nat} (n : Nat) (h : execTimes i m s = .next t) :
    execTimes i (m + n) s = execTimes i n t := by
  induction m generalizing s with
  | zero => cases h; rw [Nat.zero_add]
  | succ m ih =>
    rw [execTimes] at h
    rcases he : exec i s with u | f | r <;> rw [he] at h
    · rw [show m + 1 + n = (m + n) + 1 by omega, execTimes, he]; exact ih h
    · cases h
    · cases h

/-- One step of a command in flight, from the rule of its state. -/
theorem execTimes_rule {i : Instr} (n : Nat) (hi : isCommand i = true) (hs : s.st ≠ .sIdle) (h : ruleOf s = .next t) :
    execTimes i (n + 1) s = execTimes i n t := execTimes_succ n ((exec_busy hi hs).trans h)

/-! ### The settle loop (43 R127) -/

/-- `DLY` steps of the settle loop bring `DLY` to 0 and change nothing else. -/
theorem settle_run {i : Instr} (hi : isCommand i = true) (n : Nat) :
    ∀ s : State, s.st = .sVSettle → s.dly.toNat = n → execTimes i n s = .next { s with dly := 0#32 } := by
  induction n with
  | zero =>
    intro s _ hd
    have : s.dly = 0#32 := BitVec.eq_of_toNat_eq (by simpa using hd)
    rw [execTimes_zero, ← this]
  | succ n ih =>
    intro s hs hd
    have hne : s.dly ≠ 0#32 := by intro e; rw [e] at hd; simp at hd
    rw [execTimes_rule n hi (by rw [hs]; decide) (ruleOf_sVSettle hs), ruleVSettle, if_neg hne, ih (countDown s) hs]
    · rfl
    · show (s.dly - 1#32).toNat = n
      have := s.dly.isLt
      rw [BitVec.toNat_sub]
      simp only [BitVec.toNat_ofNat]
      omega

end Sys2Proof.Machine
end

