-- ==== Sys2Proof/Laws/Turns.lean ====
section
/-! SUPPORT. What one step can be, said once: which agent moves, and what its move does to the state. Every whole-machine
proof takes its cases from `step_cases`. -/

namespace Sys2Proof.Machine

variable {s t : State}

/-- A turn of the sequencer that answers a next state. -/
inductive TurnCase (s t : State) : Prop where
  | wait (md : s.md = none) (st : s.st = .sIdle) (port : s.port = []) (eq : t = s)
  | take (md : s.md = none) (st : s.st = .sIdle) (cw : BitVec 36) (rest : List FetchWord)
      (port : s.port = .cmd cw :: rest) (eq : t = accept (cwOp cw) (cwArg cw) (dropPort s))
  | start (md : s.md = none) (st : s.st = .sIdle) (d : BitVec 25) (rest : List FetchWord)
      (port : s.port = .mop d :: rest) (run : runWord (.mop d) (startMop d (dropPort s)) = .next t)
      (frame : MopFrame (startMop d (dropPort s)) t)
  | goOn (d : BitVec 25) (md : s.md = some d) (run : runWord (.mop d) s = .next t) (frame : MopFrame s t)
  | rule (inFlight : CommandInFlight s) (run : ruleOf s = .next t)

/-- The frame of a descriptor's step that answers a next state. -/
theorem mopFrame_runWord {d : BitVec 25} (h : runWord (.mop d) s = .next t) : MopFrame s t := by
  rcases runWord_mop d s with e | ⟨u, e, hf⟩ <;> rw [e] at h <;> cases h
  exact hf

theorem turn_cases (h : seqTurn s = .next t) : TurnCase s t := by
  rcases hm : s.md with _ | d
  · by_cases hs : s.st = .sIdle
    · rw [seqTurn_atRest hm hs] at h
      rcases hp : s.port with _ | ⟨cw | d, rest⟩ <;> rw [hp] at h
      · exact .wait hm hs hp (by cases h; rfl)
      · exact .take hm hs cw rest hp (by cases h; rfl)
      · exact .start hm hs d rest hp h (mopFrame_runWord h)
    · exact .rule ⟨hm, hs⟩ (by rwa [seqTurn_inFlight ⟨hm, hs⟩] at h)
  · have h' : runWord (.mop d) s = .next t := by rwa [seqTurn_mop hm] at h
    exact .goOn d hm h' (mopFrame_runWord h')

/-- A step that answers a next state: who moved. -/
inductive StepCase (s t : State) : Prop where
  | sequencer (moves : SequencerMoves s) (turn : TurnCase { s with sched := s.sched.tail } t)
  | present (w : FetchWord) (rest : List Move) (sched : s.sched = .hostPresent w :: rest)
      (eq : t = { s with sched := rest, port := s.port ++ [w] })
  | consume (rest : List Move) (sched : s.sched = .hostConsume :: rest)
      (eq : t = { s with sched := rest, rspOut := s.rspOut.tail })
  | lock (rest : List Move) (sched : s.sched = .pllLocks :: rest) (eq : t = { s with sched := rest, pllLock := true })
  | drop (rest : List Move) (sched : s.sched = .pllDropsLock :: rest)
      (eq : t = { s with sched := rest, pllLock := s.pllLock && !s.cfg.pllMayDropLock })
  | settle (rest : List Move) (sched : s.sched = .railsSettle :: rest)
      (eq : t = { s with sched := rest, railSettled := true })
  | reset (rest : List Move) (sched : s.sched = .resetAsserted :: rest) (st : s.st = .sIdle) (md : s.md = none)
      (eq : t = resetEvent { s with sched := rest })

theorem pllDropsLock_eq (s : State) : pllDropsLock s = { s with pllLock := s.pllLock && !s.cfg.pllMayDropLock } := by
  unfold pllDropsLock
  cases h : s.cfg.pllMayDropLock <;> simp

theorem step_cases (h : step s = .next t) : StepCase s t := by
  unfold step takeTurn at h
  rcases hq : s.sched with _ | ⟨m, rest⟩ <;> rw [hq] at h
  · refine .sequencer (.inl hq) (turn_cases ?_)
    rw [hq]
    show seqTurn { s with sched := [] } = _
    rw [← hq]; exact h
  · cases m with
    | sequencer => exact .sequencer (.inr ⟨rest, hq⟩) (turn_cases (by rw [hq]; exact h))
    | hostPresent w => cases h; exact .present w rest hq rfl
    | hostConsume => cases h; exact .consume rest hq rfl
    | pllLocks => cases h; exact .lock rest hq rfl
    | pllDropsLock =>
      cases h
      exact .drop rest hq (pllDropsLock_eq _)
    | railsSettle => cases h; exact .settle rest hq rfl
    | resetAsserted =>
      change resetAsserted _ = _ at h
      unfold resetAsserted atRest at h
      split at h
      · rename_i hr
        cases h
        simp only [Bool.and_eq_true, decide_eq_true_eq, Option.isNone_iff_eq_none] at hr
        exact .reset rest hq hr.1 hr.2 rfl
      · cases h
    | foreignWrite r w => cases h

/-- The register side of any sequencer turn: at most one transaction (00_scope.md R8). -/
theorem busStep_turn (h : TurnCase s t) : BusStep s t := by
  cases h with
  | wait _ _ _ e => subst e; exact busStep_refl _
  | take _ _ cw _ _ e => subst e; exact .quiet rfl rfl rfl rfl rfl rfl
  | start _ _ d _ _ _ hf =>
    cases hf.bus with
    | quiet b p l c v r => exact .quiet b p l c v r
    | read x b p l c v r => exact .read x b p l c v r
    | write x w b p l c v r => cases x <;> exact .write _ w b p l c v r
  | goOn _ _ _ hf => exact hf.bus
  | rule _ hr => exact (ruleFrame_ruleOf hr).busStep

end Sys2Proof.Machine
end

