-- ==== Sys2Proof/Tests/Slice0.lean ====
section
/-! SUPPORT. The model's own tests: the well-formedness smoke, decoding of words written out from the spec's encoding, one
step per test with the values of spec/95_test_vectors.md, and a witness of the hypotheses of every statement. Labels
such as L4, RF1, Q8, M5, S1, P2 are the vectors of that file. -/

namespace Sys2Proof.Tests

open Sys2Proof Sys2Proof.Machine

/-! ### Well-formedness: an ill-formed term for each check (R90) -/

theorem test_wf_refuses_get : (Instr.get .pll 26#5 0x7F#7).wf = false := by decide
theorem test_wf_refuses_setfield : (Instr.setfield .cdiv 31#5 0x3#7 1#7).wf = false := by decide
theorem test_wf_refuses_clearfield : (Instr.clearfield .vtarg 28#5 0x1F#7).wf = false := by decide
theorem test_wf_refuses_waituntil : (Instr.waituntil .pll 31#5 0x2#7 0#7).wf = false := by decide
/-- The last offset at which each mask fits. -/
theorem test_wf_admits_top_fields :
    (Instr.get .pll 25#5 0x7F#7).wf = true ∧ (Instr.setfield .cdiv 30#5 0x3#7 1#7).wf = true ∧
    (Instr.clearfield .vtarg 27#5 0x1F#7).wf = true ∧ (Instr.waituntil .pll 31#5 1#7 1#7).wf = true := by decide

/-! ### Decoding, one word per constructor, as 95_test_vectors.md writes it out -/

/-- P1's command word. -/
theorem test_decode_setfreq : decodeTableWord 36 0x12F34F600 = some (.setfreq 792000000#32) := by decide
/-- RDFREQ with a junk operand (the line above RF1). -/
theorem test_decode_rdfreq : decodeTableWord 36 0x2DEADBEEF = some (.rdfreq 0xDEADBEEF#32) := by decide
/-- S1. -/
theorem test_decode_setop : decodeTableWord 36 0x30012B128 = some (.setop 1225000#32) := by decide
/-- L1. -/
theorem test_decode_lookup : decodeTableWord 36 0x40BCD3D80 = some (.lookup 198000000#32) := by decide
/-- M3: kind 0000, reg 10, off 00000, mask 0011111, val 0000000. -/
theorem test_decode_get :
    decodeTableWord 25 0b0000100000000111110000000 = some (.get .vtarg 0#5 0x1F#7) := by decide
/-- M5: kind 0001, reg 00, off 10000, mask 0000001. -/
theorem test_decode_set : decodeTableWord 25 0b0001001000000000010000000 = some (.set .pll 16#5) := by decide
/-- M8. -/
theorem test_decode_clear : decodeTableWord 25 0b0010001000000000010000000 = some (.clear .pll 16#5) := by decide
/-- M9: kind 0011, reg 01, off 00000, mask 0000111, val 0000011. -/
theorem test_decode_setfield :
    decodeTableWord 25 0b0011010000000001110000011 = some (.setfield .cdiv 0#5 0x7#7 3#7) := by decide
/-- M13. -/
theorem test_decode_clearfield :
    decodeTableWord 25 0b0100101001000111110000000 = some (.clearfield .vtarg 18#5 0x1F#7) := by decide
/-- M7. -/
theorem test_decode_waituntil :
    decodeTableWord 25 0b0101001111100000010000001 = some (.waituntil .pll 31#5 1#7 1#7) := by decide
/-- M10. -/
theorem test_decode_read : decodeTableWord 25 0x0D00000 = some (.read .vtarg) := by decide
/-- M11. -/
theorem test_decode_write : decodeTableWord 25 0x0F00000 = some (.write .vtarg) := by decide
/-- M12. -/
theorem test_decode_delay : decodeTableWord 25 0x1000000 = some .delay := by decide
/-- R63, R64, R65: reserved opcodes, kinds and register; and numbers too wide for the format. -/
theorem test_decode_refuses_reserved :
    decodeTableWord 36 0x000000000 = none ∧ decodeTableWord 36 0x500000000 = none ∧
    decodeTableWord 36 0xF00000000 = none ∧ decodeTableWord 25 0x1200000 = none ∧
    decodeTableWord 25 0x1E00000 = none ∧ decodeTableWord 25 0x0180000 = none ∧
    decodeTableWord 25 0x2000000 = none ∧ decodeTableWord 36 0x1000000000 = none := by decide
/-- The encoder writes the descriptors of M4 to M9. -/
theorem test_encode_descriptors :
    encode (.setfield .pll 14#5 0x3#7 0#7) = .mop 0x0638180#25 ∧ encode (.set .pll 16#5) = .mop 0x0240080#25 ∧
    encode (.setfield .pll 0#5 0x7F#7 66#7) = .mop 0x0603FC2#25 ∧
    encode (.waituntil .pll 31#5 1#7 1#7) = .mop 0x0A7C081#25 ∧ encode (.clear .pll 16#5) = .mop 0x0440080#25 ∧
    encode (.setfield .cdiv 0#5 0x7#7 3#7) = .mop 0x0680383#25 := by decide

/-! ### Arithmetic vectors -/

/-- Q1, Q3 to Q8, Q12, Q14, Q15, Q18 to Q20, Q23. -/
theorem test_quant_vectors :
    [0#32, 700000#32, 724999#32, 725000#32, 749999#32, 750000#32, 825000#32, 1174999#32, 1225000#32, 1240000#32,
      1450000#32, 1450001#32, 1474999#32, 4294967295#32].map (fun uv => (quant uv).toNat) =
    [0, 0, 0, 1, 1, 2, 5, 18, 21, 21, 30, 31, 31, 31] := by decide
/-- The secondary codes of Q8, Q11, Q13 and Q23. -/
theorem test_soc_vectors : [5#5, 18#5, 19#5, 31#5].map (fun c => (socCode c).toNat) = [18, 18, 19, 31] := by decide
/-- F4, F6, F7, F8, F10, F11, F14: the whole product is halved, never the divider first. -/
theorem test_freq_vectors :
    [(75#7, 0#3), (75, 1), (65, 6), (127, 0), (0, 0), (1, 0), (67, 2)].map (fun x => (freq x.1 x.2).toNat) =
    [900000000, 450000000, 111428571, 1524000000, 0, 12000000, 268000000] := by decide
/-- L1 to L5. -/
theorem test_lookup_vectors :
    defaultTable.map packRow = [0x384E7EF0#32, 0x184FA3E8#32, 0x1B11EDD8#32, 0x0852B128#32, 0x09737478#32] := by decide

/-! ### Launch states of the vectors -/

/-- The state a step leaves, if it leaves one. -/
def nextOf (o : Host.Outcome State Fault Refusal) : Option State :=
  match o with
  | .next s => some s
  | .fault _ => none
  | .refused _ => none

/-- One field of the state an instruction leaves. -/
def after {α : Type} (i : Instr) (s : State) (f : State → α) : Option α := (nextOf (exec i s)).map f

/-- Launch of P1: the 396 MHz point. -/
def at396 : State :=
  { State.reset with
    pll := 0x00002042#32, pllLock := true, cdiv := 1#32, vtarg := 0x0048240D#32, railSettled := true }

/-- Launch of P2: the 900 MHz point. -/
def at900 : State :=
  { at396 with pll := 0x0000204B#32, cdiv := 0#32, vtarg := 0x005C2417#32 }

/-- `at396` in another sequencer state. -/
def inState (x : SeqState) : State := { at396 with st := x }

/-- SETFREQ 198 MHz from the 900 MHz point (P2), resolved, in state `x`. -/
def dec (x : SeqState) : State :=
  { at900 with
    st := x, cmd := 0x1#4, arg := 198000000#32, opDiv := 66#7, opPodf := 3#3, opUv := 950000#32
    rdDiv := 75#7, curHz := 900000000#32, inc := false }

/-- SETFREQ 792 MHz from the 396 MHz point (P1), resolved, in state `x`. -/
def incr (x : SeqState) : State :=
  { at396 with
    st := x, cmd := 0x1#4, arg := 792000000#32, opDiv := 66#7, opPodf := 0#3, opUv := 1225000#32
    rdDiv := 66#7, rdPodf := 1#3, curHz := 396000000#32, inc := true }

/-! ### One step of each instruction -/

/-- P1 step 1. -/
theorem test_setfreq_accepts :
    after (.setfreq 792000000#32) at396 (fun t => (t.st, t.cmd, t.arg)) = some (.sEntry, 1#4, 0x2F34F600#32) := by decide
/-- P2: the divider write 75 to 66 is sent as 0x80012042, and the lock falls. -/
theorem test_setfreq_divider_write :
    after (.setfreq 198000000#32) { dec .sDivselWr with pll := 0x0001204B#32, tmp := 0x8001204B#32 }
      (fun t => (t.bus, t.pllLock, busValue .pll t, t.st)) =
    some ([.wr 0x020C8000#32 0x80012042#32], false, 0x00012042#32, .sWaitLock) := by decide
/-- RF1: the second read and the answer. -/
theorem test_rdfreq_answers :
    after (.rdfreq 0#32) { inState .sRdPodf with cmd := 2#4, rdDiv := 66#7 } (fun t => (t.bus, t.rdata, t.st)) =
    some ([.rd 0x020C4010#32 1#32], 0x179A7B00#32, .sRespond) := by decide
/-- RF3: bypass and lock are ignored; DIV_SELECT is read from 0x00012042. -/
theorem test_rdfreq_ignores_bypass_and_lock :
    after (.rdfreq 0#32) { inState .sRdDiv with cmd := 2#4, pll := 0x00012042#32, pllLock := false }
      (fun t => (t.bus, t.rdDiv, t.st)) =
    some ([.rd 0x020C8000#32 0x00012042#32], 66#7, .sRdPodf) := by decide
/-- S1: one write carries both targets, and the foreign bits stay. -/
theorem test_setop_writes_both_rails :
    after (.setop 1225000#32) { inState .sVRmwWr with tmp := 0x0048240D#32, vCore := 21#5, vSoc := 21#5 }
      (fun t => (t.bus, t.vtarg, t.railSettled, t.dly)) =
    some ([.wr 0x020C8140#32 0x00542415#32], 0x00542415#32, false, 10000#32) := by decide
/-- S9: the core code is programmed already; one read, no write, and the floor is not repaired. -/
theorem test_setop_same_code_writes_nothing :
    after (.setop 1025000#32) { inState .sVRdCur with vtarg := 0x0014240D#32, vCore := 13#5, vphase := .alone }
      (fun t => (t.bus, t.vtarg, t.st)) =
    some ([.rd 0x020C8140#32 0x0014240D#32], 0x0014240D#32, .sRespond) := by decide
/-- L4. -/
theorem test_lookup_packs_row :
    after (.lookup 792000000#32) { inState .sLookup with cmd := 4#4, arg := 792000000#32 }
      (fun t => (t.status, t.rdata, t.bus)) = some (.ok, 0x0852B128#32, []) := by decide
/-- L9: one Hz off the key. -/
theorem test_lookup_misses_by_one :
    after (.lookup 792000001#32) { inState .sLookup with cmd := 4#4, arg := 792000001#32 }
      (fun t => (t.status, t.rdata)) = some (.unsupportedFrequency, 0#32) := by decide
/-- M1. -/
theorem test_get_divider :
    after (.get .pll 0#5 0x7F#7) at396 (fun t => (t.bus, t.mopResult)) =
    some ([.rd 0x020C8000#32 0x80002042#32], 66#7) := by decide
/-- M5, the write half. -/
theorem test_set_bypass :
    after (.set .pll 16#5) { at396 with mphase := .second, tmp := 0x80002042#32 } (fun t => (t.bus, t.pllLock)) =
    some ([.wr 0x020C8000#32 0x80012042#32], true) := by decide
/-- M8, the write half. -/
theorem test_clear_bypass :
    after (.clear .pll 16#5) { at396 with mphase := .second, pll := 0x00012042#32, tmp := 0x80012042#32 }
      (fun t => (t.bus, t.pll)) = some ([.wr 0x020C8000#32 0x80002042#32], 0x00002042#32) := by decide
/-- M9, the write half. -/
theorem test_setfield_podf :
    after (.setfield .cdiv 0#5 0x7#7 3#7) { at396 with mphase := .second, tmp := 0xFFFFFFF8#32 } (fun t => t.cdiv) =
    some 0xFFFFFFFB#32 := by decide
/-- M6, the read half: it writes nothing. -/
theorem test_setfield_reads_first :
    after (.setfield .pll 0#5 0x7F#7 66#7) at900 (fun t => (t.bus, t.tmp, t.pll)) =
    some ([.rd 0x020C8000#32 0x8000204B#32], 0x8000204B#32, 0x0000204B#32) := by decide
/-- M13, the write half. -/
theorem test_clearfield_vsoc :
    after (.clearfield .vtarg 18#5 0x1F#7) { at396 with mphase := .second, tmp := 0x00542415#32 } (fun t => t.vtarg) =
    some 0x00002415#32 := by decide
/-- M7: a poll that fails goes on. -/
theorem test_waituntil_polls_on :
    after (.waituntil .pll 31#5 1#7 1#7) { at396 with pllLock := false, pll := 0x00012042#32, md := some 0x0A7C081#25 }
      (fun t => (t.bus, t.md)) = some ([.rd 0x020C8000#32 0x00012042#32], some 0x0A7C081#25) := by decide
/-- M7: the poll that sees LOCK ends it. -/
theorem test_waituntil_exits :
    after (.waituntil .pll 31#5 1#7 1#7) { at396 with pll := 0x00012042#32, md := some 0x0A7C081#25 }
      (fun t => (t.bus, t.md)) = some ([.rd 0x020C8000#32 0x80012042#32], none) := by decide
/-- M10. -/
theorem test_read_vtarg :
    after (.read .vtarg) at396 (fun t => (t.bus, t.tmp)) =
    some ([.rd 0x020C8140#32 0x0048240D#32], 0x0048240D#32) := by decide
/-- M11. -/
theorem test_write_vtarg :
    after (.write .vtarg) { at396 with tmp := 0x0048240D#32, vCore := 21#5, vSoc := 21#5 } (fun t => t.bus) =
    some [.wr 0x020C8140#32 0x00542415#32] := by decide
/-- M12: it loads SETTLE_TICKS, and the step that finds 0 ends it. -/
theorem test_delay_loads_and_ends :
    after .delay at396 (fun t => (t.dly, t.mphase)) = some (10000#32, .second) ∧
    after .delay { at396 with mphase := .second, md := some 0x1000000#25 } (fun t => (t.dly, t.md)) =
      some (0#32, none) := by decide

/-! ### The very next step runs the placed word -/

theorem test_fetch_runs_command :
    (nextOf (step (State.reset.withFetchWord 36 0x42F34F600))).map (fun t => (t.st, t.cmd, t.arg)) =
    some (.sEntry, 4#4, 792000000#32) := by decide
theorem test_fetch_runs_micro_operation :
    (nextOf (step (State.reset.withFetchWord 25 0x0D00000))).map (fun t => t.bus) =
    some [.rd 0x020C8140#32 0#32] := by decide

/-! ### The default parameters meet the constraints (R7, R41, R105) -/

theorem test_default_params_wf : Params.default.WF := by
  constructor
  case deadlinePositive => intro n h; cases h
  all_goals decide


/-! ### Witnesses: for every statement with hypotheses, states and operands that meet them, clause by clause -/

/-- The row of a default-table key. -/
def row198 : Row := ⟨198000000#32, 66#7, 3#3, 950000#32⟩
def row792 : Row := ⟨792000000#32, 66#7, 0#3, 1225000#32⟩

/-- O1: the register's top field is the boundary of R90. -/
theorem test_witness_DecodeOfEncode : (Instr.waituntil .pll 31#5 1#7 1#7).wf = true := by decide

/-- O2. -/
theorem test_witness_EncodeOfDecodedCommand : decode (.cmd 0x2DEADBEEF#36) = .ok (.rdfreq 0xDEADBEEF#32) := by decide

/-- O3: the lowest and the highest reserved kind, register 3 under the highest kind that uses one, and DELAY with it. -/
theorem test_witness_ReservedDescriptors :
    ({ at396 with port := [.mop 0x1200000#25] } : State).port = .mop 0x1200000#25 :: [] ∧
    9 ≤ (mdKind 0x1200000#25).toNat ∧ 9 ≤ (mdKind 0x1E00000#25).toNat ∧
    (mdKind 0x0F80000#25 ≠ kDelay ∧ mdReg 0x0F80000#25 = 3#2) ∧ decode (.mop 0x1180000#25) = .ok .delay ∧
    at396.sched = [] ∧ at396.md = none ∧ at396.st = .sIdle := by decide

theorem test_reserved_descriptor_is_refused :
    step { at396 with port := [.mop 0x1200000#25] } = .refused .reservedDescriptor := rfl

/-- O5, its five clauses. -/
theorem test_witness_StepRunsDecoded :
    (at396.sched = [] ∧ at396.md = none ∧ at396.st = .sIdle ∧ at396.port = []) ∧
    decode (.cmd 0x12F34F600#36) = .ok (.setfreq 792000000#32) ∧ decode (.mop 0x0240080#25) = .ok (.set .pll 16#5) ∧
    decode (.cmd (cmdWord (dec .sPost).cmd (dec .sPost).arg)) = .ok (.setfreq 198000000#32) := by decide

/-- O6: in flight, a word stays held at the port over the step. -/
theorem test_witness_CommandHold :
    CommandInFlight { dec .sPost with port := [.cmd 0x200000000#36] } ∧
    (nextOf (step { dec .sPost with port := [.cmd 0x200000000#36] })).map (fun t => t.port) =
      some [.cmd 0x200000000#36] := by decide

/-- O7: both families, and the reserved opcodes at the ends of their ranges. -/
theorem test_witness_EntryDispatches :
    (inState .sEntry).family = (inState .sEntry).cfg.fam0 ∧
    ({ inState .sEntry with family := 1#8 } : State).family ≠ (inState .sEntry).cfg.fam0 ∧
    ReservedOpcode 0#4 ∧ ReservedOpcode 5#4 ∧ ReservedOpcode 15#4 ∧ ¬ ReservedOpcode 1#4 ∧ ¬ ReservedOpcode 4#4 := by
  decide

/-- O8: no key (L9, one Hz off), and a key under LOOKUP and under SETFREQ. -/
theorem test_witness_LookupState :
    (inState .sLookup).cfg.WF ∧ (∀ r ∈ at396.cfg.table, r.key ≠ 792000001#32) ∧
    (row792 ∈ at396.cfg.table ∧ row792.key = 792000000#32) ∧ (inState .sLookup).cmd ≠ 4#4 ∧
    (inState .sLookup).family = (inState .sLookup).cfg.fam0 := ⟨test_default_params_wf, by decide⟩

/-- O9. -/
theorem test_witness_Reader :
    (inState .sRdDiv).cfg.WF ∧ (inState .sRdDiv).st = .sRdDiv ∧ (inState .sRdPodf).st = .sRdPodf ∧
    ({ inState .sRdPodf with cmd := 2#4 } : State).cmd = 2#4 := ⟨test_default_params_wf, by decide⟩

/-- O10: equal, below and above, one Hz apart. -/
theorem test_witness_Compare :
    isCommand (.setfreq 0#32) = true ∧
    freq 66#7 (podfOf at396.cfg at396.cdiv) = 396000000#32 ∧
    (freq 66#7 (podfOf at396.cfg at396.cdiv)).toNat < (396000001#32 : Word).toNat ∧
    (395999999#32 : Word).toNat < (freq 66#7 (podfOf at396.cfg at396.cdiv)).toNat := by decide

/-- O11: the code differs by one at the boundary (13 and 14). -/
theorem test_witness_ControllerStates :
    vcoreOf at396.cfg at396.vtarg ≠ ({ inState .sVRdCur with vCore := 14#5 } : State).vCore ∧
    (inState .sVQuant).st = .sVQuant ∧ (inState .sVRmwRd).st = .sVRmwRd ∧ (inState .sVRmwWr).st = .sVRmwWr := by decide

/-- O12: DLY = 1 and DLY = 0, the three callers, and the equal code. -/
theorem test_witness_ControllerSettles :
    ({ inState .sVSettle with dly := 1#32 } : State).dly ≠ 0#32 ∧ (inState .sVSettle).dly = 0#32 ∧
    ({ inState .sVDiag with vphase := .pre } : State).vphase = .pre ∧
    ({ inState .sVDiag with vphase := .alone } : State).vphase = .alone ∧
    vcoreOf at396.cfg at396.vtarg = ({ inState .sVRdCur with vCore := 13#5, vphase := .post } : State).vCore := by
  decide

/-- O13 and O15: each state is some state's, and INC takes both values. -/
theorem test_witness_ProgrammingStates :
    (∀ x ∈ [SeqState.sBypsrcRd, .sBypsrcWr, .sBypsetRd, .sBypsetWr, .sDivselRd, .sDivselWr, .sUnbypRd, .sUnbypWr,
      .sPodfRd, .sPodfWr, .sPost, .sRespond], (dec x).st = x ∧ (incr x).st = x) ∧
    (dec .sPost).inc = false ∧ (incr .sPost).inc = true := by decide

/-- A lock wait with a deadline of three polls, of which `k` have failed. -/
def waiting (k : Nat) : State :=
  { dec .sWaitLock with
    pll := 0x00012042#32, pllLock := false, polls := BitVec.ofNat 32 k
    cfg := { Params.default with lockDeadline := some 3#32 } }

/-- O14: locked; unlocked without a deadline; the last poll but one and the last before HardwareTimeout. -/
theorem test_witness_LockPoll :
    (dec .sWaitLock).pllLock = true ∧ (dec .sWaitLock).cfg.lockDeadline = none ∧
    (waiting 0).pllLock = false ∧ (waiting 0).cfg.lockDeadline = some 3#32 ∧
    ((waiting 1).polls + 1#32).toNat < (3#32 : Word).toNat ∧ (3#32 : Word).toNat ≤ ((waiting 2).polls + 1#32).toNat := by
  decide

/-- O16: a key, no key, a strange family. -/
theorem test_witness_LookupCommand :
    at396.st = .sIdle ∧ at396.cmd = 0#4 ∧ at396.cfg.WF ∧ at396.family = at396.cfg.fam0 ∧
    (row198 ∈ at396.cfg.table ∧ row198.key = 198000000#32) ∧ (∀ r ∈ at396.cfg.table, r.key ≠ 0#32) ∧
    ({ at396 with family := 1#8 } : State).family ≠ at396.cfg.fam0 :=
  ⟨rfl, rfl, test_default_params_wf, by decide⟩

/-- O17. -/
theorem test_witness_RdfreqCommand : at396.st = .sIdle ∧ at396.cmd = 0#4 ∧ at396.cfg.WF :=
  ⟨rfl, rfl, test_default_params_wf⟩

/-- O18: the equal code at both ends of its range of voltages (13 is 1,025,000 to 1,049,999), and the next one. -/
theorem test_witness_SetopCommand :
    at396.st = .sIdle ∧ at396.cmd = 0#4 ∧ at396.vphase = .none ∧ at396.family = at396.cfg.fam0 ∧
    vcoreOf at396.cfg at396.vtarg = quant 1025000#32 ∧ vcoreOf at396.cfg at396.vtarg = quant 1049999#32 ∧
    vcoreOf at396.cfg at396.vtarg ≠ quant 1050000#32 ∧ ({ at396 with family := 1#8 } : State).family ≠ at396.cfg.fam0 := by
  decide

/-- O19: the third exit's hypotheses (P3, command 2); the first two as in O16. -/
theorem test_witness_SetfreqExits :
    at396.st = .sIdle ∧ at396.cmd = 0#4 ∧ at396.cfg.WF ∧
    (∃ r ∈ at396.cfg.table, r.key = 396000000#32 ∧ fieldsHz at396 = 396000000#32) ∧
    (∀ r ∈ at396.cfg.table, r.key ≠ 600000000#32) ∧ ({ at396 with family := 1#8 } : State).family ≠ at396.cfg.fam0 :=
  ⟨rfl, rfl, test_default_params_wf, ⟨⟨396000000#32, 66#7, 1#3, 1025000#32⟩, by decide, by decide⟩, by decide⟩

/-- O20: P1 (increase) and P2 (decrease). -/
theorem test_witness_SetfreqCompletes :
    (at396.st = .sIdle ∧ at396.cmd = 0#4 ∧ at396.vphase = .none ∧ pllStored at396.cfg at396.pll = at396.pll ∧
      at396.family = at396.cfg.fam0 ∧ row792 ∈ at396.cfg.table ∧ (fieldsHz at396).toNat < row792.key.toNat) ∧
    (at900.st = .sIdle ∧ at900.cmd = 0#4 ∧ at900.vphase = .none ∧ pllStored at900.cfg at900.pll = at900.pll ∧
      at900.family = at900.cfg.fam0 ∧ row198 ∈ at900.cfg.table ∧ row198.key.toNat < (fieldsHz at900).toNat) ∧
    at396.cfg.WF ∧ at900.cfg.WF := ⟨by decide, by decide, test_default_params_wf, test_default_params_wf⟩

/-- O21 and O22 (P5). -/
theorem test_witness_Polling :
    (({ dec .sWaitLock with pllLock := false } : State).pllLock = false ∧ (dec .sWaitLock).st = .sWaitLock ∧
      (dec .sWaitLock).cfg.lockDeadline = none) ∧
    ((waiting 0).st = .sWaitLock ∧ (waiting 0).pllLock = false ∧ (waiting 0).cfg.lockDeadline = some 3#32 ∧
      1 ≤ (3#32 : Word).toNat ∧ (waiting 0).polls = 0#32) := by decide

/-- O23: P3's command 4, and the two ends of the reserved range. -/
theorem test_witness_ReservedOpcode :
    ({ at396 with port := [.cmd 0x712345678#36] } : State).port = .cmd 0x712345678#36 :: [] ∧
    ReservedOpcode (cwOp 0x712345678#36) ∧ ReservedOpcode (cwOp 0x000000000#36) ∧
    ReservedOpcode (cwOp 0xFFFFFFFFF#36) ∧ at396.sched = [] ∧ at396.md = none ∧ at396.st = .sIdle ∧ at396.cmd = 0#4 := by
  decide

/-- O24: S1 and S3. -/
theorem test_witness_SecondSetop :
    at396.st = .sIdle ∧ at396.cmd = 0#4 ∧ at396.vphase = .none ∧ at396.cfg.WF ∧ at396.family = at396.cfg.fam0 ∧
    quant 1240000#32 = quant 1225000#32 := ⟨rfl, rfl, rfl, test_default_params_wf, by decide⟩

/-- O26, O29 and O30: the first half is next. O27: a poll that holds and one that does not. O28: a register that is not
VTARG. -/
theorem test_witness_MicroOperations :
    at396.mphase = .first ∧
    ((busValue .pll at396 >>> (31#5 : BitVec 5).toNat).setWidth 7 &&& 1#7) = (1#7 &&& 1#7) ∧
    ((busValue .pll { at396 with pllLock := false } >>> (31#5 : BitVec 5).toNat).setWidth 7 &&& 1#7) ≠ (1#7 &&& 1#7) ∧
    (Reg.pll ≠ .vtarg ∧ Reg.cdiv ≠ .vtarg) := by decide

/-- O29: the bounds of its count, at 0 and at SETTLE_TICKS. -/
theorem test_witness_DelayBounds : 0 ≤ at396.cfg.settleTicks.toNat ∧ 10000 ≤ at396.cfg.settleTicks.toNat := by decide

/-- O31: a field that fits below LOCK (off 24, seven bits: up to bit 30), and a whole run of two steps. -/
theorem test_witness_SetfieldReadsBack :
    at396.mphase = .first ∧ (Instr.setfield .pll 24#5 0x7F#7 5#7).wf = true ∧
    (fieldBits 24#5 0x7F#7).getLsbD at396.cfg.lockBit.toNat = false ∧
    (nextOf (execTimes (.setfield .pll 24#5 0x7F#7 5#7) 2 at396)).isSome = true := by decide

/-- O32: both two-step runs answer a next state. -/
theorem test_witness_StatePairs :
    (dec .sUnbypRd).st = .sUnbypRd ∧ (dec .sUnbypRd).mphase = .first ∧
    (nextOf (execTimes (.setfreq 0#32) 2 (dec .sUnbypRd))).isSome = true ∧
    (nextOf (execTimes (.clear .pll (dec .sUnbypRd).cfg.bypBit) 2 (dec .sUnbypRd))).isSome = true := by decide

/-- O33: the nine micro-operations, and the clause of the four that change no register. -/
theorem test_witness_MicroOperationFrame :
    (targetOf (.write .pll) ≠ some .cdiv ∧ targetOf (.write .cdiv) ≠ some .pll ∧ targetOf (.set .pll 0#5) ≠ some .vtarg ∧
      targetOf .delay ≠ some .vtarg) ∧
    isCommand (.write .pll) = false ∧ isCommand .delay = false ∧ isCommand (.get .pll 0#5 0x7F#7) = false ∧
    isCommand (.waituntil .pll 31#5 1#7 1#7) = false ∧ isCommand (.read .vtarg) = false := by decide

/-- O34: a value with another divider and one with the same. -/
theorem test_witness_PllWrites :
    at396.cfg.WF ∧ divOf at396.cfg 0x0000204B#32 ≠ divOf at396.cfg at396.pll ∧
    divOf at396.cfg 0x80012042#32 = divOf at396.cfg at396.pll := ⟨test_default_params_wf, by decide⟩

/-- O35: a value that changes one target only, and one that changes a foreign bit only. -/
theorem test_witness_VtargWrites :
    (vcoreOf at396.cfg 0x0048240E#32 ≠ vcoreOf at396.cfg at396.vtarg) ∧
    (vsocOf at396.cfg 0x004C240D#32 ≠ vsocOf at396.cfg at396.vtarg) ∧
    (vcoreOf at396.cfg 0x0048040D#32 = vcoreOf at396.cfg at396.vtarg ∧
      vsocOf at396.cfg 0x0048040D#32 = vsocOf at396.cfg at396.vtarg) := by decide

/-- The divider write of P2, about to be made. -/
def dividerWrite : State := { dec .sDivselWr with pll := 0x0001204B#32, tmp := 0x8001204B#32 }

/-- O36: lock lost by the divider write, by the PLL's own drop, and gained by its own step. -/
theorem test_witness_LockChanges :
    dividerWrite.cfg.WF ∧
    (dividerWrite.pllLock = true ∧ (nextOf (step dividerWrite)).map (fun t => t.pllLock) = some false) ∧
    (nextOf (step { at396 with sched := [.pllDropsLock], cfg := { at396.cfg with pllMayDropLock := true } })).map
      (fun t => t.pllLock) = some false ∧
    (nextOf (step { at396 with sched := [.pllLocks], pllLock := false })).map (fun t => t.pllLock) = some true :=
  ⟨test_default_params_wf, by decide⟩

/-- The VTARG write of P1, about to be made. -/
def targetWrite : State :=
  { incr .sVRmwWr with vphase := .pre, vUv := 1225000#32, vCore := 21#5, vSoc := 21#5, vOld := 13#5, tmp := 0x0048240D#32 }

/-- O37. -/
theorem test_witness_RailChanges :
    (targetWrite.railSettled = true ∧ (nextOf (step targetWrite)).map (fun t => t.railSettled) = some false) ∧
    (nextOf (step { at396 with sched := [.railsSettle], railSettled := false })).map (fun t => t.railSettled) =
      some true := by decide

/-- O38: a step with no event, with a read, and with a write. -/
theorem test_witness_OneTransaction :
    (nextOf (step (dec .sPost))).map (fun t => t.bus) = some [] ∧
    (nextOf (step (dec .sBypsrcRd))).map (fun t => t.bus) = some [.rd 0x020C8000#32 0x8000204B#32] ∧
    (nextOf (step targetWrite)).map (fun t => t.bus) = some [.wr 0x020C8140#32 0x00542415#32] := by decide

/-- O39: reset at rest, reset in flight, a foreign write. -/
theorem test_witness_ResetEvent :
    (({ at396 with sched := [.resetAsserted] } : State).st = .sIdle ∧ at396.md = none) ∧
    CommandInFlight { dec .sPost with sched := [.resetAsserted] } ∧
    ({ at396 with sched := [.foreignWrite .cdiv 7#32] } : State).sched = .foreignWrite .cdiv 7#32 :: [] := by decide

/-- O40: the ends of its three branches, and an ordered pair across one. -/
theorem test_witness_QuantBranches :
    (724999#32 : Word).toNat < 725000 ∧ 1450000 < (1450001#32 : Word).toNat ∧ 725000 ≤ (725000#32 : Word).toNat ∧
    (1450000#32 : Word).toNat ≤ 1450000 ∧ (1450000#32 : Word).toNat ≤ (1450001#32 : Word).toNat := by decide

/-- O41: the end codes of the linear range, and two rows. -/
theorem test_witness_VoltageCodes :
    (1 ≤ (1#5 : BitVec 5).toNat ∧ (30#5 : BitVec 5).toNat ≤ 30) ∧ Params.default.WF ∧ row198 ∈ Params.default.table ∧
    row792 ∈ Params.default.table ∧ row198.key.toNat < row792.key.toNat :=
  ⟨by decide, test_default_params_wf, by decide⟩

/-- O42: a field that ends at bit 31; one bit further does not fit. -/
theorem test_witness_FieldFits : fieldFits 25#5 0x7F#7 = true ∧ fieldFits 26#5 0x7F#7 = false := by decide

/-- O43: its four clauses. -/
theorem test_witness_ClockOutputs :
    (bypOf at396.cfg 0x00012042#32 = true ∧ srcOf at396.cfg 0x00012042#32 = at396.cfg.srcOsc) ∧
    (bypOf at396.cfg 0x0001E042#32 = true ∧ srcOf at396.cfg 0x0001E042#32 ≠ at396.cfg.srcOsc) ∧
    (bypOf at396.cfg at396.pll = false ∧ at396.pllLock = true) ∧
    ({ at396 with pllLock := false } : State).pllLock = false := by decide


/-! ### Coherent states along P1 and P2, and the witnesses that need one -/

/-- SETFREQ 198 MHz is resolved in every `dec` state, whatever the registers hold. -/
theorem dec_resolved (x : SeqState) (p : Word) (l : Bool) (t : Word) :
    Resolved { dec x with pll := p, pllLock := l, tmp := t } :=
  ⟨rfl, rfl, row198, (by decide : lookupRow Params.default 198000000#32 = some row198), rfl, rfl, rfl⟩

theorem dec_changing (x : SeqState) (p : Word) (l : Bool) (t : Word) :
    Changing { dec x with pll := p, pllLock := l, tmp := t } :=
  ⟨rfl, rfl, dec_resolved x p l t, (fun h => nomatch h)⟩

/-- A coherent state in the middle of P2, at the divider write. -/
theorem dividerWrite_inv : Inv dividerWrite :=
  ⟨test_default_params_wf, by decide, by decide, by decide,
    (⟨dec_changing _ _ _ _, ⟨rfl, rfl⟩, rfl⟩ : Changing dividerWrite ∧ Insulated dividerWrite ∧ TmpIsPll dividerWrite)⟩

theorem test_witness_EveryStepKeepsCoherence : Inv dividerWrite ∧ (nextOf (step dividerWrite)).isSome = true :=
  ⟨dividerWrite_inv, by decide⟩

/-- O48. -/
theorem test_witness_DividerChanges :
    Inv dividerWrite ∧ CommandInFlight dividerWrite ∧
    (nextOf (step dividerWrite)).map (fun t => decide (divOf dividerWrite.cfg t.pll ≠ divOf dividerWrite.cfg dividerWrite.pll)) =
      some true := ⟨dividerWrite_inv, by decide, by decide⟩

/-- The un-bypass write of P2, about to be made. -/
def unbypassWrite : State := { dec .sUnbypWr with pll := 0x00012042#32, tmp := 0x80012042#32 }

theorem unbypassWrite_inv : Inv unbypassWrite :=
  ⟨test_default_params_wf, by decide, by decide, by decide,
    (⟨dec_changing _ _ _ _, ⟨rfl, rfl⟩, rfl, fun _ => rfl, rfl⟩ :
      Changing unbypassWrite ∧ Insulated unbypassWrite ∧ DividerSet unbypassWrite ∧ LockHeld unbypassWrite ∧ TmpIsPll unbypassWrite)⟩

/-- O49. -/
theorem test_witness_UnbypassOnlyWhenLocked :
    Inv unbypassWrite ∧ CommandInFlight unbypassWrite ∧ unbypassWrite.cfg.pllMayDropLock = false ∧
    bypOf unbypassWrite.cfg unbypassWrite.pll = true ∧
    (nextOf (step unbypassWrite)).map (fun t => bypOf unbypassWrite.cfg t.pll) = some false :=
  ⟨unbypassWrite_inv, by decide⟩

/-- O50 and O56: a step that changes the clock's source. -/
theorem test_witness_CoreClock :
    Inv unbypassWrite ∧ unbypassWrite.cfg.pllMayDropLock = false ∧ unbypassWrite.md = none ∧
    unbypassWrite.port = [] ∧ fCore unbypassWrite ≠ .unstable ∧
    (nextOf (step unbypassWrite)).map fCore = some (.hz 792000000) :=
  ⟨unbypassWrite_inv, by decide⟩

/-- The bypass write of P1, about to be made: VTARG already holds the new target. -/
def bypassWrite : State := { incr .sBypsetWr with tmp := 0x80002042#32, vtarg := 0x00542415#32 }

theorem bypassWrite_inv : Inv bypassWrite :=
  ⟨test_default_params_wf, by decide, by decide, by decide,
    (⟨⟨rfl, rfl, ⟨rfl, rfl, row792, by decide, rfl, rfl, rfl⟩, fun _ => by decide⟩, rfl, rfl⟩ :
      Changing bypassWrite ∧ OscSelected bypassWrite ∧ TmpIsPll bypassWrite)⟩

/-- O51. -/
theorem test_witness_IncreaseRaisesFirst :
    Inv bypassWrite ∧ CommandInFlight bypassWrite ∧ bypassWrite.cmd = opSetfreq ∧ bypassWrite.inc = true ∧
    (nextOf (step bypassWrite)).map (fun t => decide (t.pll ≠ bypassWrite.pll)) = some true :=
  ⟨bypassWrite_inv, by decide⟩

/-- The VTARG write at the end of P2, about to be made: the clock has arrived. -/
def lowerWrite : State :=
  { dec .sVRmwWr with
    pll := 0x00002042#32, cdiv := 3#32, tmp := 0x005C2417#32, vphase := .post, vUv := 950000#32, vCore := 10#5
    vSoc := 18#5, vOld := 23#5 }

theorem lowerWrite_inv : Inv lowerWrite :=
  ⟨test_default_params_wf, by decide, by decide, by decide,
    (⟨⟨rfl, rfl, .inr (.inr ⟨rfl, ⟨rfl, rfl, row198, by decide, rfl, rfl, rfl⟩, rfl, rfl,
      ⟨by decide, by decide, fun _ => rfl, by decide⟩⟩)⟩, by decide⟩ :
      Calling lowerWrite ∧ lowerWrite.vCore = quant lowerWrite.vUv ∧ lowerWrite.vSoc = socCode lowerWrite.vCore ∧
        lowerWrite.vOld ≠ lowerWrite.vCore ∧ lowerWrite.tmp = lowerWrite.vtarg)⟩

/-- O52 and O54. -/
theorem test_witness_DecreaseLowersLast :
    Inv lowerWrite ∧ CommandInFlight lowerWrite ∧ lowerWrite.cmd = opSetfreq ∧ lowerWrite.inc = false ∧
    (nextOf (step lowerWrite)).map (fun t => decide (t.vtarg ≠ lowerWrite.vtarg)) = some true :=
  ⟨lowerWrite_inv, by decide⟩

/-- O53: core code 10 is written beside secondary code 18 (S4). -/
theorem test_witness_SecondaryFloor :
    Inv lowerWrite ∧ CommandInFlight lowerWrite ∧
    (nextOf (step lowerWrite)).map (fun t => t.bus) = some [.wr lowerWrite.cfg.aVtarg 0x0048240A#32] :=
  ⟨lowerWrite_inv, by decide⟩

/-- The bits outside the fields of O20 and O54: the foreign bits of 95_test_vectors.md. -/
theorem test_witness_ForeignBits :
    ((fieldBits at396.cfg.divOff at396.cfg.divMask).getLsbD 13 = false ∧
      (fieldBits at396.cfg.srcOff at396.cfg.srcMask).getLsbD 13 = false ∧ 13 ≠ at396.cfg.bypBit.toNat) ∧
    (fieldBits at396.cfg.podfOff at396.cfg.podfMask).getLsbD 3 = false ∧
    ((fieldBits at396.cfg.vcoreOff 0x1F#7).getLsbD 5 = false ∧ (fieldBits at396.cfg.vsocOff 0x1F#7).getLsbD 17 = false) := by
  decide

/-- A response about to be emitted: SETFREQ with OK (P3, command 2), RDFREQ with OK, and an error (P3, command 1). -/
def answering (op : BitVec 4) (e : Status) (d : Word) : State :=
  { inState .sRespond with cmd := op, arg := 396000000#32, status := e, rdata := d }

/-- The invariant's clause of S_RESPOND, in decidable form. -/
abbrev AnswerOk (s : State) : Prop :=
  s.vphase = .none ∧ (s.status ≠ .ok → s.rdata = 0#32) ∧
    (s.cmd = opSetfreq → s.rdata = 0#32 ∧ (s.status = .ok → fieldsHz s = s.arg)) ∧
    (s.cmd = opSetop → s.rdata = 0#32) ∧ (s.cmd = opRdfreq → s.status = .ok ∧ s.rdata = fieldsHz s)

theorem answered_path (op : BitVec 4) (e : Status) (d : Word) (h : AnswerOk (answering op e d)) :
    PathInv (answering op e d) := h

/-- O55, its three clauses. -/
theorem test_witness_Responses :
    (Inv (answering opSetfreq .ok 0#32) ∧ (nextOf (step (answering opSetfreq .ok 0#32))).map (fun t => t.rsp) =
      some [⟨.ok, 0#32⟩]) ∧
    (Inv (answering opRdfreq .ok 396000000#32) ∧
      (nextOf (step (answering opRdfreq .ok 396000000#32))).map (fun t => t.rsp) = some [⟨.ok, 396000000#32⟩]) ∧
    (Inv (answering opSetfreq .unsupportedFrequency 0#32) ∧
      (nextOf (step (answering opSetfreq .unsupportedFrequency 0#32))).map (fun t => t.rsp) =
        some [⟨.unsupportedFrequency, 0#32⟩]) := by
  refine ⟨⟨⟨test_default_params_wf, by decide, by decide, by decide, ?_⟩, by decide⟩,
    ⟨⟨test_default_params_wf, by decide, by decide, by decide, ?_⟩, by decide⟩,
    ⟨test_default_params_wf, by decide, by decide, by decide, ?_⟩, by decide⟩
  all_goals exact answered_path _ _ _ (by decide)

/-- O57: a schedule of a host and
the sequencer that answers a next state, in flight with the operand latched. -/
theorem test_witness_Latches :
    Inv State.reset ∧ State.reset.st = .sIdle ∧ State.reset.md = none ∧ State.reset.port = [] ∧
    (∀ m ∈ [Move.hostPresent (.cmd 0x30012B128#36), .sequencer, .sequencer], presentsNoMop m = true) ∧
    (nextOf (runMoves [Move.hostPresent (.cmd 0x30012B128#36), .sequencer, .sequencer] State.reset)).map
      (fun t => (t.st, t.vUv)) = some (.sVQuant, 1225000#32) :=
  ⟨⟨test_default_params_wf, by decide, by decide, by decide, ⟨rfl, rfl⟩⟩, by decide⟩

/-- A resting state that meets the invariant still meets it with other words at the port and other moves to come. -/
theorem resting_inv (p : List FetchWord) (m : List Move) : Inv { at396 with port := p, sched := m } :=
  ⟨test_default_params_wf, (by decide : pllStored at396.cfg at396.pll = at396.pll), fun _ => rfl, (fun h => nomatch h),
    (⟨rfl, rfl⟩ : at396.cmd = 0#4 ∧ at396.vphase = .none)⟩

/-- O46: its three refusals, and a next state, from coherent states. -/
theorem test_witness_CoherentOutcomes :
    (Inv { at396 with port := [.mop 0x0180000#25], sched := [] } ∧
      step { at396 with port := [.mop 0x0180000#25], sched := [] } = .refused .reservedDescriptor) ∧
    (Inv { dividerWrite with sched := [.resetAsserted] } ∧
      step { dividerWrite with sched := [.resetAsserted] } = .refused .resetInFlight) ∧
    (Inv { at396 with port := [], sched := [.foreignWrite .pll 0#32] } ∧
      step { at396 with port := [], sched := [.foreignWrite .pll 0#32] } = .refused .foreignWriter) ∧
    (Inv { at396 with port := [], sched := [.hostConsume] } ∧
      (nextOf (step { at396 with port := [], sched := [.hostConsume] })).isSome = true) :=
  ⟨⟨resting_inv _ _, rfl⟩,
    ⟨⟨test_default_params_wf, dividerWrite_inv.lockNotStored, dividerWrite_inv.mopAtIdle, dividerWrite_inv.secondHalf,
      dividerWrite_inv.path⟩, rfl⟩,
    ⟨resting_inv _ _, rfl⟩, ⟨resting_inv _ _, by decide⟩⟩

theorem deadline_params_wf : (waiting 0).cfg.WF := by
  constructor
  case deadlinePositive => intro n h; cases h; decide
  all_goals decide

theorem waiting_inv (k : Nat) : Inv (waiting k) :=
  ⟨deadline_params_wf, (by decide : pllStored (waiting 0).cfg (waiting 0).pll = (waiting 0).pll),
    (fun h => absurd rfl h), (fun h => nomatch h),
    (⟨⟨rfl, rfl, ⟨rfl, rfl, row198, (by decide : lookupRow Params.default 198000000#32 = some row198), rfl, rfl, rfl⟩,
      (fun h => nomatch h)⟩,
      ⟨(by decide : srcOf (waiting 0).cfg (waiting 0).pll = (waiting 0).cfg.srcOsc),
        (by decide : bypOf (waiting 0).cfg (waiting 0).pll = true)⟩,
      (by decide : divOf (waiting 0).cfg (waiting 0).pll = (waiting 0).opDiv)⟩ : Changing (waiting k) ∧ Insulated (waiting k) ∧ DividerSet (waiting k))⟩

/-- The direction check of P1 and of P2, about to be made. -/
theorem directing_inv : Inv (incr .sRdPodf) ∧ Inv (dec .sRdPodf) :=
  ⟨⟨test_default_params_wf, by decide, by decide, by decide,
    (⟨rfl, rfl, .inr ⟨rfl, rfl, row792, by decide, rfl, rfl, rfl⟩, by decide⟩ :
      (incr .sRdPodf).rdata = 0#32 ∧ (incr .sRdPodf).vphase = .none ∧
      ((incr .sRdPodf).cmd = opRdfreq ∨ Resolved (incr .sRdPodf)) ∧
      (incr .sRdPodf).rdDiv = divOf (incr .sRdPodf).cfg (incr .sRdPodf).pll)⟩,
   ⟨test_default_params_wf, by decide, by decide, by decide,
    (⟨rfl, rfl, .inr ⟨rfl, rfl, row198, by decide, rfl, rfl, rfl⟩, by decide⟩ :
      (dec .sRdPodf).rdata = 0#32 ∧ (dec .sRdPodf).vphase = .none ∧
      ((dec .sRdPodf).cmd = opRdfreq ∨ Resolved (dec .sRdPodf)) ∧
      (dec .sRdPodf).rdDiv = divOf (dec .sRdPodf).cfg (dec .sRdPodf).pll)⟩⟩

/-- O58: Unbypass to DividerCommit; WaitLock to Idle on the deadline; LookupTarget to VoltageRaise (P1) and to Bypass
(P2). -/
theorem test_witness_MacroStates :
    (Inv unbypassWrite ∧ unbypassWrite.sched = [] ∧ CommandInFlight unbypassWrite ∧ unbypassWrite.cmd = opSetfreq ∧
      (nextOf (step unbypassWrite)).map macroOf = some (some .dividerCommit)) ∧
    (Inv (waiting 2) ∧ CommandInFlight (waiting 2) ∧ (waiting 2).cmd = opSetfreq ∧
      (nextOf (step (waiting 2))).map (fun t => (macroOf t, t.status)) = some (some .idle, .hardwareTimeout)) ∧
    (nextOf (step (incr .sRdPodf))).map (fun t => (macroOf t, t.inc)) = some (some .voltageRaise, true) ∧
    (nextOf (step (dec .sRdPodf))).map (fun t => (macroOf t, t.inc)) = some (some .bypass, false) :=
  ⟨⟨unbypassWrite_inv, by decide⟩, ⟨waiting_inv 2, by decide⟩, by decide⟩

/-- O59: insulated (S_DIVSEL_WR), and its middle clause after the un-bypass write of P2, when the post-divider is old. -/
def afterUnbypass : State := { dec .sPodfRd with pll := 0x00002042#32 }

theorem test_witness_IntermediateClocks :
    (Inv dividerWrite ∧ fCore dividerWrite = .hz 24000000) ∧
    (Inv afterUnbypass ∧ afterUnbypass.cfg.pllMayDropLock = false ∧ fCore afterUnbypass = .hz 792000000) :=
  ⟨⟨dividerWrite_inv, by decide⟩,
    ⟨test_default_params_wf, by decide, by decide, by decide,
      (⟨dec_changing _ _ _ _, rfl, rfl, rfl, fun _ => rfl⟩ :
        Changing afterUnbypass ∧ OscSelected afterUnbypass ∧ bypOf afterUnbypass.cfg afterUnbypass.pll = false ∧ DividerSet afterUnbypass ∧ LockHeld afterUnbypass)⟩, by decide⟩

/-- O59's last clause: P2 in S_POST. -/
def arrived : State := { lowerWrite with st := .sPost, vphase := .none }

theorem test_witness_ArrivedClock : Inv arrived ∧ arrived.st = .sPost ∧ fCore arrived = .hz 198000000 :=
  ⟨⟨test_default_params_wf, by decide, by decide, by decide,
    (⟨⟨rfl, rfl, ⟨rfl, rfl, row198, by decide, rfl, rfl, rfl⟩, (fun h => nomatch h)⟩,
      ⟨by decide, by decide, fun _ => rfl, by decide⟩⟩ : Changing arrived ∧ Arrived arrived)⟩, rfl, by decide⟩

/-- O55: an answering command is in flight, and its step brings it back to S_IDLE with one response on both sides. -/
theorem test_witness_ReturnToIdle :
    CommandInFlight (answering opSetfreq .ok 0#32) ∧
    (nextOf (step (answering opSetfreq .ok 0#32))).map (fun t => (t.st, t.rsp, t.rspOut)) =
      some (.sIdle, [⟨.ok, 0#32⟩], [⟨.ok, 0#32⟩]) := by decide

/-- R66, R67: L4's response word, and the word of a HardwareTimeout (P5). -/
theorem test_response_words :
    (⟨.ok, 0x0852B128#32⟩ : Response).word = 0x00852B128#35 ∧ (⟨.hardwareTimeout, 0#32⟩ : Response).word = 0x400000000#35 := by
  decide

/-- O60: its last states: the un-bypass write, and S_POST. -/
theorem test_witness_SettledRailsToPost :
    (SettleSufficient unbypassWrite ∧ CommandInFlight unbypassWrite ∧ unbypassWrite.railSettled = true ∧
      unbypassWrite.st = .sUnbypWr ∧ (nextOf (step unbypassWrite)).isSome = true) ∧
    (SettleSufficient arrived ∧ CommandInFlight arrived ∧ arrived.railSettled = true ∧ arrived.st = .sPost ∧
      (nextOf (step arrived)).isSome = true) := by decide

/-- O60: the settle delay ends with settled rails, and a later PLL write. -/
theorem test_witness_SettledRails :
    SettleSufficient { incr .sVSettle with vphase := .pre } ∧ CommandInFlight { incr .sVSettle with vphase := .pre } ∧
    (nextOf (step { incr .sVSettle with vphase := .pre })).map (fun t => t.st) = some .sVDiag ∧
    (SettleSufficient bypassWrite ∧ bypassWrite.railSettled = true ∧ (nextOf (step bypassWrite)).isSome = true) := by
  decide

end Sys2Proof.Tests
end

section
/-! PROOF. Field insertion and extraction on every bit (00_scope.md R8, 30_encoding.md R73). -/

namespace Sys2Proof.Machine

/-- Inside the register, the bits of a field in place are its mask's bits counted from the offset. -/
theorem fieldBits_getLsbD_iff_of_lt (off : BitVec 5) (mask : BitVec 7) {j : Nat} (hj : j < 32) :
    (fieldBits off mask).getLsbD j = true ↔ off.toNat ≤ j ∧ mask.getLsbD (j - off.toNat) = true := by
  rw [fieldBits_getLsbD]; simp [hj]

/-- Insertion writes the value at the mask's bits, counted from the offset, and keeps every other bit. -/
theorem insertField_getLsbD_of_lt (r : Word) (off : BitVec 5) (mask v : BitVec 7) {j : Nat} (hj : j < 32) :
    (insertField r off mask v).getLsbD j =
      if off.toNat ≤ j ∧ mask.getLsbD (j - off.toNat) = true then v.getLsbD (j - off.toNat) else r.getLsbD j := by
  simp only [insertField_getLsbD, fieldBits_getLsbD_iff_of_lt off mask hj]

/-- Settles O42: the two bit rules and the read-back are laws of the fields. -/
theorem fieldInsertionBitByBit : Obligations.FieldInsertionBitByBit := fun w off mask v =>
  ⟨fun _ hj => insertField_getLsbD_of_lt w off mask v hj,
    fun j => field_getLsbD w off mask j,
    fun hfits => field_insertField_same w off mask v hfits⟩

end Sys2Proof.Machine
end

section
/-! PROOF. The coherence invariant holds at reset and every step of every agent keeps it (10_state.md R10 to R12): what
each rule establishes for the state it enters, by the path of a command; then the other agents' moves. -/

namespace Sys2Proof.Machine

variable {s t : State}

/-! ### The resolved operating point (44 R143) -/

theorem lookupRow_some {c : Params} {hz : Word} {r : Row} (h : lookupRow c hz = some r) : r ∈ c.table ∧ r.key = hz :=
  ⟨List.mem_of_find?_eq_some h, by simpa using List.find?_some h⟩

/-- The latches of a resolved SETFREQ hold the row of the target. -/
theorem Resolved.row (h : Resolved s) :
    ∃ r ∈ s.cfg.table, r.key = s.arg ∧ s.opDiv = r.div ∧ s.opPodf = r.podf ∧ s.opUv = r.uv := by
  obtain ⟨_, _, r, hr, hop⟩ := h
  exact ⟨r, (lookupRow_some hr).1, (lookupRow_some hr).2, hop⟩

theorem Resolved.opDiv_fits (h : Resolved s) (wf : s.cfg.WF) : s.opDiv &&& s.cfg.divMask = s.opDiv := by
  obtain ⟨r, hr, _, hd, _⟩ := h.row
  rw [hd, wf.rowDivFits r hr]

theorem Resolved.opPodf_fits (h : Resolved s) (wf : s.cfg.WF) :
    s.opPodf.setWidth 7 &&& s.cfg.podfMask = s.opPodf.setWidth 7 := by
  obtain ⟨r, hr, _, _, hp, _⟩ := h.row
  rw [hp, wf.rowPodfFits r hr]

/-- The operating point's fields give the target frequency (00_scope.md R7 (e)). -/
theorem Resolved.freq_eq_arg (h : Resolved s) (wf : s.cfg.WF) : freq s.opDiv s.opPodf = s.arg := by
  obtain ⟨r, hr, hk, hd, hp, _⟩ := h.row
  rw [hd, hp, wf.rowFreq r hr, hk]

theorem Changing.resolved (h : Changing s) : Resolved s := by
  obtain ⟨_, _, hres, _⟩ := h
  exact hres

theorem Resolved.cmd_ne_rdfreq (h : Resolved s) : s.cmd ≠ opRdfreq := by rw [h.1]; decide

/-! ### Ends of a command's work (44 R161, 60 R196) -/

/-- Success without data is coherent when a SETFREQ has arrived at its target. -/
theorem pathInv_succeed (hv : s.vphase = .none) (h0 : s.rdata = 0#32) (hr : s.cmd ≠ opRdfreq)
    (hf : s.cmd = opSetfreq → fieldsHz s = s.arg) : PathInv (succeed s) :=
  ⟨hv, fun _ => h0, fun h => ⟨h0, fun _ => hf h⟩, fun _ => h0, fun h => absurd h hr⟩

/-- An error of any command but RDFREQ, which raises none, is coherent. -/
theorem pathInv_raise {e : Status} (he : e ≠ .ok) (hv : s.vphase = .none) (h0 : s.rdata = 0#32) (hr : s.cmd ≠ opRdfreq) :
    PathInv (raise e s) :=
  ⟨hv, fun _ => h0, fun _ => ⟨h0, fun h => absurd h he⟩, fun _ => h0, fun h => absurd h hr⟩

theorem Arrived.fieldsHz_eq_arg (h : Arrived s) : fieldsHz s = s.arg := by
  obtain ⟨_, _, _, hz⟩ := h
  exact hz

/-! ### Entry, table and reader (44 R142 to R147) -/

theorem pathInv_ruleEntry (h0 : s.rdata = 0#32) (hv : s.vphase = .none) : PathInv (ruleEntry s) := by
  unfold ruleEntry
  split
  next hc =>
    have hr : s.cmd ≠ opRdfreq := by rcases hc with hc | hc <;> rw [hc] <;> decide
    split
    next hf => exact ⟨h0, hv, hc, of_decide_eq_true hf⟩
    next => exact pathInv_raise (by decide) hv h0 hr
  next =>
    split
    next hc =>
      split
      next hf => exact ⟨h0, of_decide_eq_true hf, .inl ⟨rfl, hc, rfl⟩⟩
      next => exact pathInv_raise (by decide) hv h0 (by rw [hc]; decide)
    next =>
      split
      next hc => exact ⟨h0, hv, .inl hc⟩
      next hc => exact pathInv_raise (by decide) hv h0 hc

theorem pathInv_ruleLookup (h0 : s.rdata = 0#32) (hv : s.vphase = .none) (hc : s.cmd = opSetfreq ∨ s.cmd = opLookup)
    (hf : s.family = s.cfg.fam0) (h : ruleLookup s = .next t) : PathInv t := by
  have hr : s.cmd ≠ opRdfreq := by rcases hc with hc | hc <;> rw [hc] <;> decide
  unfold ruleLookup at h
  rw [if_pos (show familyImplemented s = true from decide_eq_true hf)] at h
  split at h <;> cases h
  next => exact pathInv_raise (by decide) hv h0 hr
  next r hrow =>
    unfold lookupFound
    split
    next hl =>
      refine ⟨hv, fun hs => absurd rfl hs, fun hs => ?_, fun hs => ?_, fun hs => absurd hs hr⟩
      all_goals exact absurd (hl.symm.trans hs) (by decide)
    next hl => exact ⟨h0, hv, .inr ⟨hc.resolve_right hl, hf, r, hrow, rfl, rfl, rfl⟩⟩

theorem pathInv_ruleRdDiv (wf : s.cfg.WF) (h0 : s.rdata = 0#32) (hv : s.vphase = .none)
    (hc : s.cmd = opRdfreq ∨ Resolved s) : PathInv (ruleRdDiv s) :=
  ⟨h0, hv, hc, divOf_busValue wf⟩

/-- The reader's result is the frequency of the two fields (42 R112). -/
theorem readPodf_curHz (hd : s.rdDiv = divOf s.cfg s.pll) : (readPodf s).curHz = fieldsHz s :=
  congrArg (fun d => freq d (podfOf s.cfg s.cdiv)) hd

theorem pathInv_ruleRdPodf (h0 : s.rdata = 0#32) (hv : s.vphase = .none) (hc : s.cmd = opRdfreq ∨ Resolved s)
    (hd : s.rdDiv = divOf s.cfg s.pll) : PathInv (ruleRdPodf s) := by
  unfold ruleRdPodf
  split
  next hr =>
    refine ⟨hv, fun hs => absurd rfl hs, fun hs => ?_, fun hs => ?_, fun _ => ⟨rfl, readPodf_curHz hd⟩⟩
    all_goals exact absurd (hr.symm.trans hs) (by decide)
  next hr =>
    have hres : Resolved s := hc.resolve_left hr
    unfold compareAndDirect
    split
    next ha => exact pathInv_succeed hv h0 hr fun _ => (readPodf_curHz hd).symm.trans (of_decide_eq_true ha).symm
    next =>
      unfold preRaise
      split
      next hi => exact ⟨h0, hres.2.1, .inr (.inl ⟨rfl, hres, hi, rfl⟩)⟩
      next hi => exact ⟨h0, hv, hres, fun hi' => absurd hi' hi⟩

/-! ### The controller (43 R122 to R129) -/

/-- The return of a call whose core-rail target is in place: to the response, or to the PLL states (43 R129). -/
theorem pathInv_vReturn (hc : Calling s) (hv : vcoreOf s.cfg s.vtarg = quant s.vUv) (h : vReturn s = .next t) :
    PathInv t := by
  obtain ⟨h0, _, ⟨hp, hcmd, _⟩ | ⟨hp, hres, _, huv⟩ | ⟨hp, hres, _, _, ha⟩⟩ := hc <;>
    (unfold vReturn at h; rw [hp] at h; cases h)
  · exact pathInv_succeed rfl h0 (by simp [hcmd, opSetop, opRdfreq])
      (fun hs => absurd (hcmd.symm.trans hs) (by decide))
  · exact ⟨h0, rfl, hres, fun _ => huv ▸ hv⟩
  · exact pathInv_succeed rfl h0 hres.cmd_ne_rdfreq fun _ => ha.fieldsHz_eq_arg

theorem pathInv_ruleVRdCur (hc : Calling s) (hq : s.vCore = quant s.vUv) (h : ruleVRdCur s = .next t) : PathInv t := by
  unfold ruleVRdCur at h
  split at h
  next hm =>
    have hv : vcoreOf s.cfg s.vtarg = s.vCore := of_decide_eq_true hm
    exact pathInv_vReturn (s := { afterRead .vtarg s with vOld := _ }) hc (hv.trans hq) h
  next hm =>
    cases h
    exact ⟨hc, hq, rfl, fun he => hm (decide_eq_true he)⟩

theorem pathInv_ruleVRmwWr (wf : s.cfg.WF) (hc : Calling s) (hq : s.vCore = quant s.vUv) (hs : s.vSoc = socCode s.vCore)
    (ho : s.vOld ≠ s.vCore) : PathInv (ruleVRmwWr s) :=
  ⟨hc, hq, hs, ho, vcoreOf_withTargets wf _ _ _, vsocOf_withTargets wf _ _ _⟩

/-! ### PLL and post-divider (44 R148 to R160) -/

/-- A read of PLL into TMP brings what a read-modify-write starts from. -/
theorem tmpIsPll_readToTmp (hl : pllStored s.cfg s.pll = s.pll) : TmpIsPll (readToTmp .pll s) :=
  (pllStored_busValue s).trans hl

/-- A write of PLL that keeps DIV_SELECT keeps the lock (45 R172). -/
theorem lockHeld_memWrite_pll {w : Word} (hl : LockHeld s) (hd : divOf s.cfg w = divOf s.cfg s.pll) :
    LockHeld (memWrite .pll w s) := fun hm => by
  simp [hl hm, hd]

theorem oscSelected_ruleBypsrcWr (wf : s.cfg.WF) : OscSelected (ruleBypsrcWr s) :=
  (srcOf_pllStored wf _).trans (srcOf_insertOsc wf _)

theorem insulated_ruleBypsetWr (wf : s.cfg.WF) (ho : OscSelected s) (ht : TmpIsPll s) : Insulated (ruleBypsetWr s) :=
  ⟨(srcOf_pllStored wf _).trans ((srcOf_setByp wf _).trans ((fields_of_tmp wf ht).2.1.trans ho)),
    (bypOf_pllStored wf _).trans (bypOf_setByp _)⟩

/-- The word S_DIVSEL_WR writes keeps the insulation and sets the divider. -/
theorem insulated_dividerSet_memWrite (wf : s.cfg.WF) (hres : Resolved s) (hi : Insulated s) (ht : TmpIsPll s) :
    Insulated (memWrite .pll (insertField s.tmp s.cfg.divOff s.cfg.divMask s.opDiv) s) ∧
      DividerSet (memWrite .pll (insertField s.tmp s.cfg.divOff s.cfg.divMask s.opDiv) s) := by
  obtain ⟨_, hsrc, hbyp⟩ := fields_of_tmp wf ht
  exact ⟨⟨(srcOf_pllStored wf _).trans ((srcOf_insertDiv wf _ _).trans (hsrc.trans hi.1)),
      (bypOf_pllStored wf _).trans ((bypOf_insertDiv wf _ _).trans (hbyp.trans hi.2))⟩,
    (divOf_pllStored wf _).trans ((divOf_insertDiv wf _ _).trans (hres.opDiv_fits wf))⟩

theorem pathInv_ruleDivselWr (wf : s.cfg.WF) (hc : Changing s) (hi : Insulated s) (ht : TmpIsPll s) :
    PathInv (ruleDivselWr s) := by
  obtain ⟨hins, hdiv⟩ := insulated_dividerSet_memWrite wf hc.resolved hi ht
  unfold ruleDivselWr startPolls
  split <;> exact ⟨hc, hins, hdiv⟩

theorem pathInv_ruleWaitLock (hst : s.st = .sWaitLock) (hc : Changing s) (hi : Insulated s) (hd : DividerSet s) :
    PathInv (ruleWaitLock s) := by
  have wait {u : State} (hu : u.st = .sWaitLock) (hk : Changing u ∧ Insulated u ∧ DividerSet u) : PathInv u := by
    unfold PathInv; rw [hu]; exact hk
  unfold ruleWaitLock
  split
  next hl => exact ⟨hc, hi, hd, fun _ => (lockSeen_busValue s).symm.trans hl⟩
  next =>
    unfold pollFailed
    split
    next => exact wait hst ⟨hc, hi, hd⟩
    next =>
      split
      next => exact pathInv_raise (by decide) hc.2.1 hc.1 hc.resolved.cmd_ne_rdfreq
      next => exact wait hst ⟨hc, hi, hd⟩

theorem pathInv_ruleUnbypWr (wf : s.cfg.WF) (hc : Changing s) (hi : Insulated s) (hd : DividerSet s) (hl : LockHeld s)
    (ht : TmpIsPll s) : PathInv (ruleUnbypWr s) := by
  obtain ⟨hdiv, hsrc, _⟩ := fields_of_tmp wf ht
  have hsame : divOf s.cfg (clearBit s.tmp s.cfg.bypBit) = divOf s.cfg s.pll := (divOf_clearByp wf _).trans hdiv
  exact ⟨hc, (srcOf_pllStored wf _).trans ((srcOf_clearByp wf _).trans (hsrc.trans hi.1)),
    (bypOf_pllStored wf _).trans (bypOf_clearByp _), (divOf_pllStored wf _).trans (hsame.trans hd),
    lockHeld_memWrite_pll hl hsame⟩

theorem pathInv_rulePodfWr (wf : s.cfg.WF) (hc : Changing s) (ho : OscSelected s) (hb : bypOf s.cfg s.pll = false)
    (hd : DividerSet s) (hl : LockHeld s) : PathInv (rulePodfWr s) := by
  have hres : Resolved s := hc.resolved
  refine ⟨hc, hb, ho, hl, ?_⟩
  calc freq (divOf s.cfg s.pll) (podfOf s.cfg (insertField s.tmp s.cfg.podfOff s.cfg.podfMask (s.opPodf.setWidth 7)))
      = freq s.opDiv s.opPodf := by rw [hd, podfOf_insertPodf wf _ _ (hres.opPodf_fits wf)]
    _ = s.arg := hres.freq_eq_arg wf

theorem pathInv_rulePost (hc : Changing s) (ha : Arrived s) : PathInv (rulePost s) := by
  obtain ⟨h0, hv, hres, _⟩ := hc
  unfold rulePost
  split
  next => exact pathInv_succeed hv h0 hres.cmd_ne_rdfreq fun _ => ha.fieldsHz_eq_arg
  next hi => exact ⟨h0, hres.2.1, .inr (.inr ⟨rfl, hres, by simpa using hi, rfl, ha⟩)⟩

/-! ### Every step -/

/-- Each rule establishes the facts of the state it enters. -/
theorem pathInv_ruleOf (wf : s.cfg.WF) (hl : pllStored s.cfg s.pll = s.pll) (hp : PathInv s) (h : ruleOf s = .next t) :
    PathInv t := by
  have hp' := hp
  unfold PathInv at hp'
  unfold ruleOf at h
  rcases hst : s.st <;> rw [hst] at h hp'
  case sIdle => cases h; exact hp
  case sEntry => cases h; exact pathInv_ruleEntry hp'.1 hp'.2
  case sLookup => obtain ⟨h0, hv, hc, hf⟩ := hp'; exact pathInv_ruleLookup h0 hv hc hf h
  case sRdDiv => obtain ⟨h0, hv, hc⟩ := hp'; cases h; exact pathInv_ruleRdDiv wf h0 hv hc
  case sRdPodf => obtain ⟨h0, hv, hc, hd⟩ := hp'; cases h; exact pathInv_ruleRdPodf h0 hv hc hd
  case sVQuant => cases h; exact ⟨hp', rfl⟩
  case sVRdCur => exact pathInv_ruleVRdCur hp'.1 hp'.2 h
  case sVRmwRd => obtain ⟨hc, hq, hs, ho⟩ := hp'; cases h; exact ⟨hc, hq, hs, ho, rfl⟩
  case sVRmwWr => obtain ⟨hc, hq, hs, ho, _⟩ := hp'; cases h; exact pathInv_ruleVRmwWr wf hc hq hs ho
  case sVSettle =>
    cases h
    unfold ruleVSettle
    split
    · exact hp'
    · unfold PathInv; rw [show (countDown s).st = .sVSettle from hst]; exact hp'
  case sVDiag => obtain ⟨hc, hq, _, _, hv, _⟩ := hp'; exact pathInv_vReturn (s := emitDiag s) hc (hv.trans hq) h
  case sBypsrcRd => cases h; exact ⟨hp', tmpIsPll_readToTmp hl⟩
  case sBypsrcWr => cases h; exact ⟨hp'.1, oscSelected_ruleBypsrcWr wf⟩
  case sBypsetRd => cases h; exact ⟨hp'.1, hp'.2, tmpIsPll_readToTmp hl⟩
  case sBypsetWr => obtain ⟨hc, ho, ht⟩ := hp'; cases h; exact ⟨hc, insulated_ruleBypsetWr wf ho ht⟩
  case sDivselRd => cases h; exact ⟨hp'.1, hp'.2, tmpIsPll_readToTmp hl⟩
  case sDivselWr => obtain ⟨hc, hi, ht⟩ := hp'; cases h; exact pathInv_ruleDivselWr wf hc hi ht
  case sWaitLock => obtain ⟨hc, hi, hd⟩ := hp'; cases h; exact pathInv_ruleWaitLock hst hc hi hd
  case sUnbypRd => obtain ⟨hc, hi, hd, hk⟩ := hp'; cases h; exact ⟨hc, hi, hd, hk, tmpIsPll_readToTmp hl⟩
  case sUnbypWr => obtain ⟨hc, hi, hd, hk, ht⟩ := hp'; cases h; exact pathInv_ruleUnbypWr wf hc hi hd hk ht
  case sPodfRd => obtain ⟨hc, ho, hb, hd, hk⟩ := hp'; cases h; exact ⟨hc, ho, hb, hd, hk, rfl⟩
  case sPodfWr => obtain ⟨hc, ho, hb, hd, hk, _⟩ := hp'; cases h; exact pathInv_rulePodfWr wf hc ho hb hd hk
  case sPost => cases h; exact pathInv_rulePost hp'.1 hp'.2
  case sRespond => cases h; exact ⟨rfl, hp'.1⟩

/-- At rest the invariant's path clause is about CMD and VPHASE only. -/
theorem pathInv_of_idle (hst : s.st = .sIdle) : PathInv s ↔ s.cmd = 0#4 ∧ s.vphase = .none := by
  unfold PathInv; rw [hst]

/-- Bit LOCK is never stored, whatever the bus transaction (45 R170). -/
theorem BusStep.lockNotStored (hb : BusStep s t) (hcfg : t.cfg = s.cfg) (hl : pllStored s.cfg s.pll = s.pll) :
    pllStored t.cfg t.pll = t.pll := by
  rw [hcfg]
  rcases hb.pll_cases with e | ⟨w, e⟩ <;> rw [e]
  · exact hl
  · exact pllStored_pllStored w

/-- A command in flight stays coherent. -/
theorem inv_rule (hi : Inv s) (hf : CommandInFlight s) (h : ruleOf s = .next t) : Inv t := by
  obtain ⟨hcfg, _, _, _, hmd, hmp, hbus⟩ := ruleFrame_ruleOf h
  refine ⟨hcfg ▸ hi.cfgWF, hbus.lockNotStored hcfg hi.lockNotStored, ?_, ?_,
    pathInv_ruleOf hi.cfgWF hi.lockNotStored hi.path h⟩
  · rw [hmd]; exact fun hm => absurd hf.1 hm
  · rw [hmd, hmp]; exact hi.secondHalf

/-- A stand-alone micro-operation leaves a coherent sequencer at rest. -/
theorem inv_mop (hi : Inv s) (hmd : s.md ≠ none) (hf : MopFrame s t) : Inv t := by
  have hst : s.st = .sIdle := hi.mopAtIdle hmd
  have hst' : t.st = .sIdle := hf.st.trans hst
  refine ⟨hf.cfg ▸ hi.cfgWF, hf.bus.lockNotStored hf.cfg hi.lockNotStored, fun _ => hst', fun hsec => ?_, ?_⟩
  · rcases hf.md with e | ⟨_, hfirst⟩
    · rwa [e]
    · exact absurd (hfirst.symm.trans hsec) (by decide)
  · rw [pathInv_of_idle hst', hf.cmd, hf.vphase]; exact (pathInv_of_idle hst).1 hi.path

theorem inv_startMop (hi : Inv s) (hst : s.st = .sIdle) (d : BitVec 25) : Inv (startMop d (dropPort s)) :=
  ⟨hi.cfgWF, hi.lockNotStored, fun _ => hst, fun _ => by simp,
    (pathInv_of_idle hst).2 ((pathInv_of_idle hst).1 hi.path)⟩

theorem inv_accept (hi : Inv s) (hmd : s.md = none) (hst : s.st = .sIdle) (op : BitVec 4) (arg : Word) :
    Inv (accept op arg s) :=
  ⟨hi.cfgWF, hi.lockNotStored, fun hm => absurd hmd hm, hi.secondHalf, rfl, ((pathInv_of_idle hst).1 hi.path).2⟩

/-- The sequencer's turn keeps the invariant. -/
theorem inv_turn (hi : Inv s) (h : TurnCase s t) : Inv t := by
  cases h with
  | wait _ _ _ e => exact e ▸ hi
  | take md st cw _ _ e => subst e; exact inv_accept (s := dropPort s) ⟨hi.1, hi.2, hi.3, hi.4, hi.5⟩ md st _ _
  | start _ st d _ _ _ hf => exact inv_mop (inv_startMop hi st d) (by simp) hf
  | goOn d md _ hf => exact inv_mop hi (by simp [md]) hf
  | rule hf hr => exact inv_rule hi hf hr

/-- A move of the PLL that does not break `LockHeld` keeps every state's facts. -/
theorem pathInv_setLock {b : Bool} (hb : LockHeld s → LockHeld { s with pllLock := b }) (hp : PathInv s) :
    PathInv { s with pllLock := b } := by
  have hc : Calling s → Calling { s with pllLock := b } := fun ⟨h0, hf, hcall⟩ =>
    ⟨h0, hf, hcall.imp_right (.imp_right fun ⟨hv, hr, hi, hu, h1, h2, hk, h3⟩ => ⟨hv, hr, hi, hu, h1, h2, hb hk, h3⟩)⟩
  unfold PathInv at hp ⊢
  rcases hst : s.st <;> simp only [hst] at hp ⊢
  case sVQuant => exact hc hp
  case sVRdCur | sVRmwRd | sVRmwWr | sVSettle | sVDiag => exact hp.imp_left hc
  case sUnbypRd => obtain ⟨h, hi, hd, hk⟩ := hp; exact ⟨h, hi, hd, hb hk⟩
  case sUnbypWr => obtain ⟨h, hi, hd, hk, ht⟩ := hp; exact ⟨h, hi, hd, hb hk, ht⟩
  case sPodfRd => obtain ⟨h, ho, hy, hd, hk⟩ := hp; exact ⟨h, ho, hy, hd, hb hk⟩
  case sPodfWr => obtain ⟨h, ho, hy, hd, hk, ht⟩ := hp; exact ⟨h, ho, hy, hd, hb hk, ht⟩
  case sPost => obtain ⟨h, h1, h2, hk, h3⟩ := hp; exact ⟨h, h1, h2, hb hk, h3⟩
  all_goals exact hp

theorem inv_setLock {b : Bool} (hb : LockHeld s → LockHeld { s with pllLock := b }) (hi : Inv s) :
    Inv { s with pllLock := b } :=
  ⟨hi.cfgWF, hi.lockNotStored, hi.mopAtIdle, hi.secondHalf, pathInv_setLock hb hi.path⟩

/-- The invariant does not speak of the schedule, the ports or the rails. -/
theorem inv_setPorts (hi : Inv s) (ms : List Move) (ws : List FetchWord) (rs : List Response) (b : Bool) :
    Inv { s with sched := ms, port := ws, rspOut := rs, railSettled := b } :=
  ⟨hi.cfgWF, hi.lockNotStored, hi.mopAtIdle, hi.secondHalf, hi.path⟩

/-- A reset at rest leaves a coherent sequencer (70 R220). -/
theorem inv_resetEvent (hi : Inv s) : Inv (resetEvent s) :=
  ⟨hi.cfgWF, hi.lockNotStored, fun _ => rfl, hi.secondHalf, rfl, rfl⟩

/-- Settles O45: by who moves; a rule of the sequencer establishes the facts of the state it enters, and no other
agent's move touches more than the lock and the ports. -/
theorem everyStepKeepsCoherence : Obligations.EveryStepKeepsCoherence := by
  intro s t hi h
  cases step_cases h with
  | sequencer _ turn => exact inv_turn (inv_setPorts hi _ s.port s.rspOut s.railSettled) turn
  | present w rest _ e => exact e ▸ inv_setPorts hi rest (s.port ++ [w]) s.rspOut s.railSettled
  | consume rest _ e => exact e ▸ inv_setPorts hi rest s.port s.rspOut.tail s.railSettled
  | lock rest _ e =>
    subst e
    exact inv_setLock (fun _ _ => rfl) (inv_setPorts hi rest s.port s.rspOut s.railSettled)
  | drop rest _ e =>
    subst e
    refine inv_setLock (fun hk hm => ?_) (inv_setPorts hi rest s.port s.rspOut s.railSettled)
    exact Bool.and_eq_true_iff.2 ⟨hk hm, by simpa using hm⟩
  | settle rest _ e => exact e ▸ inv_setPorts hi rest s.port s.rspOut true
  | reset rest _ _ _ e => exact e ▸ inv_resetEvent (inv_setPorts hi rest s.port s.rspOut s.railSettled)

/-! ### At reset -/

/-- The default parameters meet 00_scope.md R7, 20_memory.md R41 and 41 R105. -/
theorem paramsDefault_wf : Params.default.WF := by
  constructor
  case deadlinePositive => exact fun _ h => nomatch h
  all_goals decide

/-- Settles O44: the default parameters are well-formed, and the reset state is at rest. -/
theorem coherenceAtReset : Obligations.CoherenceAtReset where
  cfgWF := paramsDefault_wf
  lockNotStored := by decide
  mopAtIdle := fun _ => rfl
  secondHalf := fun h => nomatch h
  path := ⟨rfl, rfl⟩

end Sys2Proof.Machine
end

section
/-! PROOF. Commands change no foreign bit (10_state.md R19; 70 R239 P7): six rules write a register, and each of them
writes the value it read but for its own field. -/

namespace Sys2Proof.Machine

variable {s t : State}

/-! ### Which rules write -/

/-- No register's stored bits change. -/
def RegistersKept (s t : State) : Prop := t.pll = s.pll ∧ t.cdiv = s.cdiv ∧ t.vtarg = s.vtarg

/-- A rule keeps the registers, or is one of the six write halves (43 R126; 44 R149, R151, R153, R157, R159). -/
inductive RuleWrite (s t : State) : Prop where
  | kept (regs : RegistersKept s t)
  | source (st : s.st = .sBypsrcWr) (eq : t = ruleBypsrcWr s)
  | bypass (st : s.st = .sBypsetWr) (eq : t = ruleBypsetWr s)
  | divider (st : s.st = .sDivselWr) (eq : t = ruleDivselWr s)
  | unbypass (st : s.st = .sUnbypWr) (eq : t = ruleUnbypWr s)
  | podf (st : s.st = .sPodfWr) (eq : t = rulePodfWr s)
  | targets (st : s.st = .sVRmwWr) (eq : t = ruleVRmwWr s)

theorem registersKept_vReturn (h : vReturn s = .next t) : RegistersKept s t := by
  unfold vReturn at h
  split at h <;> cases h <;> exact ⟨rfl, rfl, rfl⟩

theorem registersKept_ruleEntry (s : State) : RegistersKept s (ruleEntry s) := by
  unfold ruleEntry
  split_ifs <;> exact ⟨rfl, rfl, rfl⟩

theorem registersKept_ruleLookup (h : ruleLookup s = .next t) : RegistersKept s t := by
  unfold ruleLookup at h
  split at h
  · split at h <;> cases h
    · exact ⟨rfl, rfl, rfl⟩
    · unfold lookupFound
      split <;> exact ⟨rfl, rfl, rfl⟩
  · cases h

theorem registersKept_ruleRdPodf (s : State) : RegistersKept s (ruleRdPodf s) := by
  unfold ruleRdPodf compareAndDirect preRaise
  split_ifs <;> exact ⟨rfl, rfl, rfl⟩

theorem registersKept_ruleVRdCur (h : ruleVRdCur s = .next t) : RegistersKept s t := by
  unfold ruleVRdCur at h
  split at h
  · exact registersKept_vReturn (s := { afterRead .vtarg s with vOld := _ }) h
  · cases h; exact ⟨rfl, rfl, rfl⟩

theorem registersKept_ruleVSettle (s : State) : RegistersKept s (ruleVSettle s) := by
  unfold ruleVSettle
  split <;> exact ⟨rfl, rfl, rfl⟩

theorem registersKept_startPolls (s : State) : RegistersKept s (startPolls s) := by
  unfold startPolls
  split <;> exact ⟨rfl, rfl, rfl⟩

theorem registersKept_ruleWaitLock (s : State) : RegistersKept s (ruleWaitLock s) := by
  unfold ruleWaitLock pollFailed
  repeat' split
  all_goals exact ⟨rfl, rfl, rfl⟩

theorem registersKept_rulePost (s : State) : RegistersKept s (rulePost s) := by
  unfold rulePost
  split <;> exact ⟨rfl, rfl, rfl⟩

theorem ruleWrite_ruleOf (h : ruleOf s = .next t) : RuleWrite s t := by
  unfold ruleOf at h
  rcases hst : s.st <;> rw [hst] at h
  case sEntry => cases h; exact .kept (registersKept_ruleEntry s)
  case sLookup => exact .kept (registersKept_ruleLookup h)
  case sRdPodf => cases h; exact .kept (registersKept_ruleRdPodf s)
  case sVRdCur => exact .kept (registersKept_ruleVRdCur h)
  case sVRmwWr => cases h; exact .targets hst rfl
  case sVSettle => cases h; exact .kept (registersKept_ruleVSettle s)
  case sVDiag => exact .kept (registersKept_vReturn (s := emitDiag s) h)
  case sBypsrcWr => cases h; exact .source hst rfl
  case sBypsetWr => cases h; exact .bypass hst rfl
  case sDivselWr => cases h; exact .divider hst rfl
  case sWaitLock => cases h; exact .kept (registersKept_ruleWaitLock s)
  case sUnbypWr => cases h; exact .unbypass hst rfl
  case sPodfWr => cases h; exact .podf hst rfl
  case sPost => cases h; exact .kept (registersKept_rulePost s)
  all_goals cases h; exact .kept ⟨rfl, rfl, rfl⟩

/-- A step with a command in flight is the rule `ST` selects, or another agent's, which stores nothing. -/
theorem step_inFlight_cases (hf : CommandInFlight s) (h : step s = .next t) :
    ruleOf { s with sched := s.sched.tail } = .next t ∨ RegistersKept s t := by
  cases step_cases h with
  | sequencer _ turn =>
    cases turn with
    | wait _ st => exact absurd st hf.2
    | take _ st => exact absurd st hf.2
    | start _ st => exact absurd st hf.2
    | goOn d md => exact absurd (hf.1.symm.trans md) (by simp)
    | rule _ run => exact .inl run
  | present _ _ _ e | consume _ _ e | lock _ _ e | drop _ _ e | settle _ _ e | reset _ _ _ _ e =>
    subst e; exact .inr ⟨rfl, rfl, rfl⟩

/-! ### What TMP holds in a write half -/

theorem tmpIsPll_of_pathInv (hp : PathInv s)
    (hst : s.st = .sBypsrcWr ∨ s.st = .sBypsetWr ∨ s.st = .sDivselWr ∨ s.st = .sUnbypWr) : TmpIsPll s := by
  unfold PathInv at hp
  rcases hst with hst | hst | hst | hst <;> rw [hst] at hp
  · exact hp.2
  · obtain ⟨_, _, ht⟩ := hp; exact ht
  · obtain ⟨_, _, ht⟩ := hp; exact ht
  · obtain ⟨_, _, _, _, ht⟩ := hp; exact ht

theorem tmp_eq_cdiv_of_pathInv (hp : PathInv s) (hst : s.st = .sPodfWr) : s.tmp = s.cdiv := by
  unfold PathInv at hp
  rw [hst] at hp
  obtain ⟨_, _, _, _, _, ht⟩ := hp
  exact ht

theorem tmp_eq_vtarg_of_pathInv (hp : PathInv s) (hst : s.st = .sVRmwWr) : s.tmp = s.vtarg := by
  unfold PathInv at hp
  rw [hst] at hp
  obtain ⟨_, _, _, _, ht⟩ := hp
  exact ht

/-! ### The foreign bits of a step -/

/-- Bit `j` keeps its value in every register in which it is foreign. -/
def ForeignBitKept (j : Nat) (s t : State) : Prop :=
  ((fieldBits s.cfg.divOff s.cfg.divMask).getLsbD j = false →
    (fieldBits s.cfg.srcOff s.cfg.srcMask).getLsbD j = false → j ≠ s.cfg.bypBit.toNat →
    t.pll.getLsbD j = s.pll.getLsbD j) ∧
  ((fieldBits s.cfg.podfOff s.cfg.podfMask).getLsbD j = false → t.cdiv.getLsbD j = s.cdiv.getLsbD j) ∧
  ((fieldBits s.cfg.vcoreOff 0x1F#7).getLsbD j = false → (fieldBits s.cfg.vsocOff 0x1F#7).getLsbD j = false →
    t.vtarg.getLsbD j = s.vtarg.getLsbD j)

theorem foreignBitKept_of_registersKept (h : RegistersKept s t) (j : Nat) : ForeignBitKept j s t := by
  obtain ⟨hp, hc, hv⟩ := h
  exact ⟨fun _ _ _ => by rw [hp], fun _ => by rw [hc], fun _ _ => by rw [hv]⟩

/-- A word that has TMP's bit `j` is stored with the PLL's bit `j`. -/
theorem pllStored_getLsbD_of_tmp {w : Word} {j : Nat} (ht : TmpIsPll s) (hw : w.getLsbD j = s.tmp.getLsbD j) :
    (pllStored s.cfg w).getLsbD j = s.pll.getLsbD j := by
  rw [← ht, pllStored, pllStored, clearBit_getLsbD, clearBit_getLsbD, hw]

/-- A write of PLL that alters none but its own fields keeps the foreign bits. -/
theorem foreignBitKept_of_pllWrite {w : Word} {j : Nat} (ht : TmpIsPll s) (hpll : t.pll = pllStored s.cfg w)
    (hc : t.cdiv = s.cdiv) (hv : t.vtarg = s.vtarg)
    (hw : (fieldBits s.cfg.divOff s.cfg.divMask).getLsbD j = false →
      (fieldBits s.cfg.srcOff s.cfg.srcMask).getLsbD j = false → j ≠ s.cfg.bypBit.toNat →
      w.getLsbD j = s.tmp.getLsbD j) : ForeignBitKept j s t := by
  refine ⟨fun hd hs hb => ?_, fun _ => by rw [hc], fun _ _ => by rw [hv]⟩
  rw [hpll, pllStored_getLsbD_of_tmp ht (hw hd hs hb)]

theorem foreignBitKept_rule (hp : PathInv s) (h : ruleOf s = .next t) (j : Nat) : ForeignBitKept j s t := by
  cases ruleWrite_ruleOf h with
  | kept regs => exact foreignBitKept_of_registersKept regs j
  | source st e =>
    subst e
    exact foreignBitKept_of_pllWrite (tmpIsPll_of_pathInv hp (.inl st)) rfl rfl rfl fun _ hs _ => by
      rw [insertField_getLsbD, hs]; rfl
  | bypass st e =>
    subst e
    exact foreignBitKept_of_pllWrite (tmpIsPll_of_pathInv hp (.inr (.inl st))) rfl rfl rfl fun _ _ hb => by
      simp [setBit_getLsbD, hb]
  | divider st e =>
    subst e
    obtain ⟨hpll, hc, hv⟩ := registersKept_startPolls
      (memWrite .pll (insertField s.tmp s.cfg.divOff s.cfg.divMask s.opDiv) s)
    exact foreignBitKept_of_pllWrite (tmpIsPll_of_pathInv hp (.inr (.inr (.inl st)))) hpll hc hv fun hd _ _ => by
      rw [insertField_getLsbD, hd]; rfl
  | unbypass st e =>
    subst e
    exact foreignBitKept_of_pllWrite (tmpIsPll_of_pathInv hp (.inr (.inr (.inr st)))) rfl rfl rfl fun _ _ hb => by
      simp [clearBit_getLsbD, hb]
  | podf st e =>
    subst e
    refine ⟨fun _ _ _ => rfl, fun hf => ?_, fun _ _ => rfl⟩
    show (insertField s.tmp s.cfg.podfOff s.cfg.podfMask _).getLsbD j = _
    rw [insertField_getLsbD, hf, tmp_eq_cdiv_of_pathInv hp st]; rfl
  | targets st e =>
    subst e
    refine ⟨fun _ _ _ => rfl, fun _ => rfl, fun hc hs => ?_⟩
    exact (withTargets_getLsbD_foreign s.tmp s.vCore s.vSoc j hc hs).trans (by rw [tmp_eq_vtarg_of_pathInv hp st])

/-- Settles O54: a rule that writes is one of six, and in a coherent state what it writes differs from the register in
the rule's own field only. -/
theorem commandsPreserveForeignBits : Obligations.CommandsPreserveForeignBits := by
  intro s t hi hf h j
  rcases step_inFlight_cases hf h with hr | hk
  · exact foreignBitKept_rule (inv_setPorts hi s.sched.tail s.port s.rspOut s.railSettled).path hr j
  · exact foreignBitKept_of_registersKept hk j

end Sys2Proof.Machine
end

section
/-! PROOF. What the sequencer never consults (60_exceptions.md R208; 45 R179; 10_state.md R20, R22): the traces and
`rail_settled` are written and never read, so a step from a state with other traces appends the same to them. -/

namespace Sys2Proof.Machine

/-- A map of the next state; a fault or a refusal stays as it is. -/
def mapNext (g : State → State) : Host.Outcome State Fault Refusal → Host.Outcome State Fault Refusal
  | .next s => .next (g s)
  | .fault f => .fault f
  | .refused r => .refused r

/-- `s` with other traces and another `rail_settled`. -/
def withRecords (b : List BusEvent) (r : List Response) (d : List DiagEvent) (rail : Bool) (s : State) : State :=
  { s with bus := b, rsp := r, diag := d, railSettled := rail }

/-- From other traces and another rail bit, `f` does what it does from `s`, but for what it appends to those traces and
the rails' own bit. -/
def AppendsOnly (f : State → Host.Outcome State Fault Refusal) (s : State) : Prop :=
  ∃ eb er ed, ∀ b r d rail, ∃ rail',
    f (withRecords b r d rail s) = mapNext (withRecords (b ++ eb) (r ++ er) (d ++ ed) rail') (f s)

variable {s t : State} {f g : State → Host.Outcome State Fault Refusal}

theorem AppendsOnly.of_quiet
    (h : ∀ b r d rail, ∃ rail', f (withRecords b r d rail s) = mapNext (withRecords b r d rail') (f s)) :
    AppendsOnly f s :=
  ⟨[], [], [], by simpa using h⟩

theorem AppendsOnly.of_bus (e : BusEvent)
    (h : ∀ b r d rail, ∃ rail', f (withRecords b r d rail s) = mapNext (withRecords (b ++ [e]) r d rail') (f s)) :
    AppendsOnly f s :=
  ⟨[e], [], [], by simpa using h⟩

/-- Another function that does what `f` does. -/
theorem AppendsOnly.congr (h : AppendsOnly f s)
    (e : ∀ b r d rail, g (withRecords b r d rail s) = f (withRecords b r d rail s)) : AppendsOnly g s := by
  obtain ⟨eb, er, ed, h⟩ := h
  have hs : g s = f s := e s.bus s.rsp s.diag s.railSettled
  exact ⟨eb, er, ed, fun b r d rail => by rw [e, hs]; exact h b r d rail⟩

/-- What is appended to other traces is what was appended to the state's own. -/
theorem AppendsOnly.of_next (h : AppendsOnly f s) (hf : f s = .next t) :
    ∃ eb er ed, t.bus = s.bus ++ eb ∧ t.rsp = s.rsp ++ er ∧ t.diag = s.diag ++ ed ∧
      ∀ b r d rail, ∃ rail',
        f (withRecords b r d rail s) = .next (withRecords (b ++ eb) (r ++ er) (d ++ ed) rail' t) := by
  obtain ⟨eb, er, ed, h⟩ := h
  rw [hf] at h
  obtain ⟨rail', hs⟩ := h s.bus s.rsp s.diag s.railSettled
  have ht : t = withRecords (s.bus ++ eb) (s.rsp ++ er) (s.diag ++ ed) rail' t :=
    Host.Outcome.next.inj (hf.symm.trans hs)
  exact ⟨eb, er, ed, congrArg State.bus ht, congrArg State.rsp ht, congrArg State.diag ht, h⟩

/-! ### The rules commute with other traces -/

section
variable (b : List BusEvent) (r : List Response) (d : List DiagEvent) (rail : Bool) (s : State)

@[simp] theorem withRecords_port : (withRecords b r d rail s).port = s.port := rfl
@[simp] theorem withRecords_vphase : (withRecords b r d rail s).vphase = s.vphase := rfl
@[simp] theorem withRecords_mphase : (withRecords b r d rail s).mphase = s.mphase := rfl
@[simp] theorem withRecords_cfg : (withRecords b r d rail s).cfg = s.cfg := rfl
@[simp] theorem withRecords_arg : (withRecords b r d rail s).arg = s.arg := rfl

@[simp] theorem busValue_withRecords (x : Reg) : busValue x (withRecords b r d rail s) = busValue x s := by
  cases x <;> rfl

/-- A read is recorded after whatever the trace holds. -/
theorem afterRead_withRecords (x : Reg) :
    afterRead x (withRecords b r d rail s) =
      withRecords (b ++ [.rd (addrOf s.cfg x) (busValue x s)]) r d rail (afterRead x s) := by
  cases x <;> rfl

theorem readToTmp_withRecords (x : Reg) :
    readToTmp x (withRecords b r d rail s) =
      withRecords (b ++ [.rd (addrOf s.cfg x) (busValue x s)]) r d rail (readToTmp x s) := by
  cases x <;> rfl

/-- A write is recorded after whatever the trace holds; only the rails' own bit answers to the bit before. -/
theorem memWrite_withRecords (x : Reg) (w : Word) :
    memWrite x w (withRecords b r d rail s) =
      withRecords (b ++ [.wr (addrOf s.cfg x) w]) r d (storeReg x w (withRecords b r d rail s)).railSettled
        (memWrite x w s) := by
  cases x <;> rfl

theorem ruleEntry_withRecords : ruleEntry (withRecords b r d rail s) = withRecords b r d rail (ruleEntry s) := by
  simp only [ruleEntry, apply_ite (withRecords b r d rail)]; rfl

theorem lookupFound_withRecords (row : Row) :
    lookupFound row (withRecords b r d rail s) = withRecords b r d rail (lookupFound row s) := by
  simp only [lookupFound, apply_ite (withRecords b r d rail)]; rfl

theorem ruleLookup_withRecords :
    ruleLookup (withRecords b r d rail s) = mapNext (withRecords b r d rail) (ruleLookup s) := by
  simp only [ruleLookup, apply_ite (mapNext (withRecords b r d rail)), withRecords_cfg, withRecords_arg,
    lookupFound_withRecords]
  rcases lookupRow s.cfg s.arg <;> rfl

theorem compareAndDirect_withRecords :
    compareAndDirect (withRecords b r d rail s) = withRecords b r d rail (compareAndDirect s) := by
  simp only [compareAndDirect, preRaise, apply_ite (withRecords b r d rail)]; rfl

theorem readPodf_withRecords : readPodf (withRecords b r d rail s) =
    withRecords (b ++ [.rd s.cfg.aCdiv s.cdiv]) r d rail (readPodf s) := rfl

theorem ruleRdPodf_withRecords : ruleRdPodf (withRecords b r d rail s) =
    withRecords (b ++ [.rd s.cfg.aCdiv s.cdiv]) r d rail (ruleRdPodf s) := by
  simp only [ruleRdPodf, readPodf_withRecords, compareAndDirect_withRecords,
    apply_ite (withRecords (b ++ [.rd s.cfg.aCdiv s.cdiv]) r d rail)]
  rfl

theorem vReturn_withRecords : vReturn (withRecords b r d rail s) = mapNext (withRecords b r d rail) (vReturn s) := by
  simp only [vReturn, withRecords_vphase]
  rcases s.vphase <;> rfl

theorem ruleVRdCur_withRecords : ruleVRdCur (withRecords b r d rail s) =
    mapNext (withRecords (b ++ [.rd s.cfg.aVtarg s.vtarg]) r d rail) (ruleVRdCur s) := by
  simp only [ruleVRdCur, apply_ite (mapNext _), ← vReturn_withRecords]; rfl

theorem ruleVSettle_withRecords : ruleVSettle (withRecords b r d rail s) = withRecords b r d rail (ruleVSettle s) := by
  simp only [ruleVSettle, apply_ite (withRecords b r d rail)]; rfl

theorem startPolls_withRecords : startPolls (withRecords b r d rail s) = withRecords b r d rail (startPolls s) := by
  simp only [startPolls, withRecords_cfg]
  rcases s.cfg.lockDeadline <;> rfl

theorem pollFailed_withRecords : pollFailed (withRecords b r d rail s) = withRecords b r d rail (pollFailed s) := by
  simp only [pollFailed, withRecords_cfg]
  rcases s.cfg.lockDeadline with _ | n
  · rfl
  · simp only [apply_ite (withRecords b r d rail)]; rfl

theorem ruleWaitLock_withRecords : ruleWaitLock (withRecords b r d rail s) =
    withRecords (b ++ [.rd s.cfg.aPll (busValue .pll s)]) r d rail (ruleWaitLock s) := by
  simp only [ruleWaitLock, apply_ite (withRecords _ r d rail), ← pollFailed_withRecords]; rfl

theorem rulePost_withRecords : rulePost (withRecords b r d rail s) = withRecords b r d rail (rulePost s) := by
  simp only [rulePost, apply_ite (withRecords b r d rail)]; rfl

theorem pllDropsLock_withRecords : pllDropsLock (withRecords b r d rail s) = withRecords b r d rail (pllDropsLock s) := by
  simp only [pllDropsLock, apply_ite (withRecords b r d rail)]; rfl

theorem resetAsserted_withRecords :
    resetAsserted (withRecords b r d rail s) = mapNext (withRecords b r d rail) (resetAsserted s) := by
  simp only [resetAsserted, apply_ite (mapNext (withRecords b r d rail))]; rfl

end

/-! ### The rule of each state -/

/-- In a state whose rule is `f`, the sequencer's rule appends what `f` appends. -/
theorem AppendsOnly.atState {x : SeqState} (hst : s.st = x) (hr : ∀ {u : State}, u.st = x → ruleOf u = f u)
    (h : AppendsOnly f s) : AppendsOnly ruleOf s :=
  h.congr fun b r d rail => hr (u := withRecords b r d rail s) hst

theorem appendsOnly_ruleOf (s : State) : AppendsOnly ruleOf s := by
  rcases hst : s.st
  case sIdle =>
    exact .atState (f := .next) hst (fun hu => by simp only [ruleOf, hu]) (.of_quiet fun b r d rail => ⟨rail, rfl⟩)
  case sEntry =>
    exact .atState hst ruleOf_sEntry
      (.of_quiet fun b r d rail => ⟨rail, congrArg Host.Outcome.next (ruleEntry_withRecords b r d rail s)⟩)
  case sLookup =>
    exact .atState hst ruleOf_sLookup
      (.of_quiet fun b r d rail => ⟨rail, ruleLookup_withRecords b r d rail s⟩)
  case sRdDiv =>
    exact .atState hst ruleOf_sRdDiv
      (.of_bus (.rd s.cfg.aPll (busValue .pll s)) fun b r d rail => ⟨rail, rfl⟩)
  case sRdPodf =>
    exact .atState hst ruleOf_sRdPodf
      (.of_bus (.rd s.cfg.aCdiv s.cdiv)
        fun b r d rail => ⟨rail, congrArg Host.Outcome.next (ruleRdPodf_withRecords b r d rail s)⟩)
  case sVQuant => exact .atState hst ruleOf_sVQuant (.of_quiet fun b r d rail => ⟨rail, rfl⟩)
  case sVRdCur =>
    exact .atState hst ruleOf_sVRdCur
      (.of_bus (.rd s.cfg.aVtarg s.vtarg) fun b r d rail => ⟨rail, ruleVRdCur_withRecords b r d rail s⟩)
  case sVRmwRd => exact .atState hst ruleOf_sVRmwRd (.of_bus (.rd s.cfg.aVtarg s.vtarg) fun b r d rail => ⟨rail, rfl⟩)
  case sVRmwWr =>
    exact .atState hst ruleOf_sVRmwWr (.of_bus (.wr s.cfg.aVtarg (withTargets s.cfg s.tmp s.vCore s.vSoc))
      fun b r d rail => ⟨(ruleVRmwWr (withRecords b r d rail s)).railSettled, rfl⟩)
  case sVSettle =>
    exact .atState hst ruleOf_sVSettle
      (.of_quiet fun b r d rail => ⟨rail, congrArg Host.Outcome.next (ruleVSettle_withRecords b r d rail s)⟩)
  case sVDiag =>
    refine .atState hst ruleOf_sVDiag ⟨[], [], [⟨s.vOld, s.vCore, s.vSoc, s.vUv⟩], fun b r d rail => ⟨rail, ?_⟩⟩
    simp only [List.append_nil]
    exact vReturn_withRecords b r (d ++ [⟨s.vOld, s.vCore, s.vSoc, s.vUv⟩]) rail (emitDiag s)
  case sBypsrcRd =>
    exact .atState hst ruleOf_sBypsrcRd
      (.of_bus (.rd s.cfg.aPll (busValue .pll s)) fun b r d rail => ⟨rail, rfl⟩)
  case sBypsrcWr =>
    exact .atState hst ruleOf_sBypsrcWr
      (.of_bus (.wr s.cfg.aPll (insertField s.tmp s.cfg.srcOff s.cfg.srcMask s.cfg.srcOsc))
        fun b r d rail => ⟨rail, rfl⟩)
  case sBypsetRd =>
    exact .atState hst ruleOf_sBypsetRd
      (.of_bus (.rd s.cfg.aPll (busValue .pll s)) fun b r d rail => ⟨rail, rfl⟩)
  case sBypsetWr =>
    exact .atState hst ruleOf_sBypsetWr
      (.of_bus (.wr s.cfg.aPll (setBit s.tmp s.cfg.bypBit)) fun b r d rail => ⟨rail, rfl⟩)
  case sDivselRd =>
    exact .atState hst ruleOf_sDivselRd
      (.of_bus (.rd s.cfg.aPll (busValue .pll s)) fun b r d rail => ⟨rail, rfl⟩)
  case sDivselWr =>
    refine .atState hst ruleOf_sDivselWr
      (.of_bus (.wr s.cfg.aPll (insertField s.tmp s.cfg.divOff s.cfg.divMask s.opDiv)) fun b r d rail => ⟨rail, ?_⟩)
    simp only [ruleDivselWr, memWrite_withRecords, startPolls_withRecords]; rfl
  case sWaitLock =>
    exact .atState hst ruleOf_sWaitLock
      (.of_bus (.rd s.cfg.aPll (busValue .pll s))
        fun b r d rail => ⟨rail, congrArg Host.Outcome.next (ruleWaitLock_withRecords b r d rail s)⟩)
  case sUnbypRd =>
    exact .atState hst ruleOf_sUnbypRd
      (.of_bus (.rd s.cfg.aPll (busValue .pll s)) fun b r d rail => ⟨rail, rfl⟩)
  case sUnbypWr =>
    exact .atState hst ruleOf_sUnbypWr
      (.of_bus (.wr s.cfg.aPll (clearBit s.tmp s.cfg.bypBit)) fun b r d rail => ⟨rail, rfl⟩)
  case sPodfRd => exact .atState hst ruleOf_sPodfRd (.of_bus (.rd s.cfg.aCdiv s.cdiv) fun b r d rail => ⟨rail, rfl⟩)
  case sPodfWr =>
    exact .atState hst ruleOf_sPodfWr
      (.of_bus (.wr s.cfg.aCdiv (insertField s.tmp s.cfg.podfOff s.cfg.podfMask (s.opPodf.setWidth 7)))
        fun b r d rail => ⟨rail, rfl⟩)
  case sPost =>
    exact .atState hst ruleOf_sPost
      (.of_quiet fun b r d rail => ⟨rail, congrArg Host.Outcome.next (rulePost_withRecords b r d rail s)⟩)
  case sRespond =>
    refine .atState hst ruleOf_sRespond ⟨[], [⟨s.status, s.rdata⟩], [], fun b r d rail => ⟨rail, ?_⟩⟩
    simp only [List.append_nil]; rfl

/-! ### A stand-alone micro-operation -/

/-- The shared read-modify-write. -/
theorem appendsOnly_rmwStep (x : Reg) (modify : Word → Word) (s : State) :
    AppendsOnly (fun u => .next (rmwStep x modify u)) s := by
  rcases hm : s.mphase
  case first =>
    refine .of_bus (.rd (addrOf s.cfg x) (busValue x s)) fun b r d rail => ⟨rail, ?_⟩
    simp only [rmwStep, withRecords_mphase, hm, readToTmp_withRecords]; rfl
  case second =>
    refine .of_bus (.wr (addrOf s.cfg x) (modify s.tmp)) fun b r d rail =>
      ⟨(storeReg x (modify s.tmp) (withRecords b r d rail s)).railSettled, ?_⟩
    simp only [rmwStep, withRecords_mphase, hm, memWrite_withRecords]; rfl

theorem drawFor_withRecords (b : List BusEvent) (r : List Response) (d : List DiagEvent) (rail : Bool) (s : State)
    (x : Reg) : drawFor x (withRecords b r d rail s) = withRecords b r d rail (drawFor x s) := by
  cases x <;> rfl

theorem writeData_withRecords (b : List BusEvent) (r : List Response) (d : List DiagEvent) (rail : Bool) (s : State)
    (x : Reg) : writeData x (withRecords b r d rail s) = writeData x s := by
  cases x <;> rfl

theorem appendsOnly_exec_mop {i : Instr} (hi : IsMop i) (s : State) : AppendsOnly (exec i) s := by
  cases i with
  | setfreq | rdfreq | setop | lookup => exact hi.elim
  | get x off mask =>
    refine .of_bus (.rd (addrOf s.cfg x) (busValue x s)) fun b r d rail => ⟨rail, ?_⟩
    simp only [exec, execGet, afterRead_withRecords, busValue_withRecords]; rfl
  | set x | clear x | setfield x | clearfield x => exact appendsOnly_rmwStep x _ s
  | waituntil x off mask expected =>
    refine .of_bus (.rd (addrOf s.cfg x) (busValue x s)) fun b r d rail => ⟨rail, ?_⟩
    simp only [exec, execWaituntil, afterRead_withRecords, busValue_withRecords]
    split_ifs <;> rfl
  | read x =>
    refine .of_bus (.rd (addrOf s.cfg x) (busValue x s)) fun b r d rail => ⟨rail, ?_⟩
    simp only [exec, execRead, readToTmp_withRecords]; rfl
  | write x =>
    refine .of_bus (.wr (addrOf s.cfg x) (writeData x s)) fun b r d rail =>
      ⟨(storeReg x (writeData x s) (withRecords b r d rail s)).railSettled, ?_⟩
    simp only [exec, execWrite, writeData_withRecords, memWrite_withRecords, drawFor_withRecords]; rfl
  | delay =>
    refine .of_quiet fun b r d rail => ⟨rail, ?_⟩
    simp only [exec, execDelay, withRecords_mphase]
    rcases s.mphase
    · rfl
    · simp only [mapNext, apply_ite (withRecords b r d rail)]; rfl

theorem appendsOnly_runWord_mop (x : BitVec 25) (s : State) : AppendsOnly (runWord (.mop x)) s := by
  rcases decode_mop_cases x with ⟨i, hd, hi⟩ | ⟨k, hd⟩ | hd
  · exact (appendsOnly_exec_mop hi s).congr fun b r d rail => by simp only [runWord, hd]
  all_goals exact .of_quiet fun b r d rail => ⟨rail, by simp only [runWord, hd]; rfl⟩

/-! ### The sequencer's turn and every agent's move -/

theorem appendsOnly_seqTurn (s : State) : AppendsOnly seqTurn s := by
  rcases hm : s.md with _ | x
  · by_cases hs : s.st = .sIdle
    · have hturn (b r d rail) := seqTurn_atRest (s := withRecords b r d rail s) hm hs
      simp only [withRecords_port] at hturn
      rcases hp : s.port with _ | ⟨cw | x, rest⟩ <;> simp only [hp] at hturn
      · exact .congr (f := .next) (.of_quiet fun b r d rail => ⟨rail, rfl⟩) hturn
      · exact .congr (f := fun u => .next (accept (cwOp cw) (cwArg cw) (dropPort u)))
          (.of_quiet fun b r d rail => ⟨rail, rfl⟩) hturn
      · exact .congr (f := fun u => runWord (.mop x) (startMop x (dropPort u)))
          (appendsOnly_runWord_mop x (startMop x (dropPort s))) hturn
    · exact (appendsOnly_ruleOf s).congr fun b r d rail => seqTurn_inFlight (s := withRecords b r d rail s) ⟨hm, hs⟩
  · exact (appendsOnly_runWord_mop x s).congr fun b r d rail => seqTurn_mop (s := withRecords b r d rail s) hm

theorem appendsOnly_takeMove (m : Move) (s : State) : AppendsOnly (takeMove m) s := by
  cases m with
  | sequencer => exact appendsOnly_seqTurn s
  | pllDropsLock => exact .of_quiet fun b r d rail => ⟨rail, congrArg _ (pllDropsLock_withRecords b r d rail s)⟩
  | railsSettle => exact .of_quiet fun b r d rail => ⟨true, rfl⟩
  | resetAsserted => exact .of_quiet fun b r d rail => ⟨rail, resetAsserted_withRecords b r d rail s⟩
  | hostPresent | hostConsume | pllLocks | foreignWrite => exact .of_quiet fun b r d rail => ⟨rail, rfl⟩

theorem appendsOnly_step (s : State) : AppendsOnly step s := by
  rcases hq : s.sched with _ | ⟨m, rest⟩
  · exact (appendsOnly_seqTurn s).congr fun b r d rail => by
      simp only [step, takeTurn, show (withRecords b r d rail s).sched = [] from hq]
  · exact .congr (f := fun u => takeMove m { u with sched := rest })
      (appendsOnly_takeMove m { s with sched := rest }) fun b r d rail => by
        simp only [step, takeTurn, show (withRecords b r d rail s).sched = m :: rest from hq]

/-- Settles O56: no rule, micro-operation or other agent reads a trace or the rails' bit, so each commutes with their
replacement. -/
theorem tracesAndRailStatusAreNeverConsulted : Obligations.TracesAndRailStatusAreNeverConsulted :=
  fun s _ h => (appendsOnly_step s).of_next h

end Sys2Proof.Machine
end

section
/-! PROOF. No command depends on a latch left by an earlier one (10_state.md R13): of the latches, each state reads only
those the command in flight has written, and two runs that agree on these agree in everything but latches. -/

namespace Sys2Proof.Machine

variable {l s t : State}

/-! ### The latches that are live in each state -/

/-- The operating point the command has resolved (44 R143). -/
def SameOp (l s : State) : Prop := l.opDiv = s.opDiv ∧ l.opPodf = s.opPodf ∧ l.opUv = s.opUv

/-- What a frequency change still reads: its operating point, its direction, and the response data. -/
def SameChange (l s : State) : Prop := l.rdata = s.rdata ∧ SameOp l s ∧ l.inc = s.inc

/-- What a call of the controller still reads; a stand-alone SETOP has no operating point. -/
def SameCall (l s : State) : Prop := l.rdata = s.rdata ∧ l.vUv = s.vUv ∧ (s.vphase = .alone ∨ SameChange l s)

/-- `l` and `s` hold the same in every latch that is live in the state `s` is in. -/
def LatchesAgree (l s : State) : Prop :=
  match s.st with
  | .sIdle => True
  | .sEntry => l.arg = s.arg ∧ l.rdata = s.rdata
  | .sLookup => l.arg = s.arg ∧ l.rdata = s.rdata
  | .sRdDiv => l.arg = s.arg ∧ l.rdata = s.rdata ∧ (s.cmd = opRdfreq ∨ SameOp l s)
  | .sRdPodf => l.arg = s.arg ∧ l.rdata = s.rdata ∧ (s.cmd = opRdfreq ∨ SameOp l s) ∧ l.rdDiv = s.rdDiv
  | .sVQuant => SameCall l s
  | .sVRdCur => SameCall l s ∧ l.vCore = s.vCore
  | .sVRmwRd => SameCall l s ∧ l.vCore = s.vCore ∧ l.vOld = s.vOld ∧ l.vSoc = s.vSoc
  | .sVRmwWr => SameCall l s ∧ l.vCore = s.vCore ∧ l.vOld = s.vOld ∧ l.vSoc = s.vSoc ∧ l.tmp = s.tmp
  | .sVSettle => SameCall l s ∧ l.vCore = s.vCore ∧ l.vOld = s.vOld ∧ l.vSoc = s.vSoc ∧ l.dly = s.dly
  | .sVDiag => SameCall l s ∧ l.vCore = s.vCore ∧ l.vOld = s.vOld ∧ l.vSoc = s.vSoc
  | .sBypsrcRd => SameChange l s
  | .sBypsrcWr => SameChange l s ∧ l.tmp = s.tmp
  | .sBypsetRd => SameChange l s
  | .sBypsetWr => SameChange l s ∧ l.tmp = s.tmp
  | .sDivselRd => SameChange l s
  | .sDivselWr => SameChange l s ∧ l.tmp = s.tmp
  | .sWaitLock => SameChange l s ∧ (s.cfg.lockDeadline = none ∨ l.polls = s.polls)
  | .sUnbypRd => SameChange l s
  | .sUnbypWr => SameChange l s ∧ l.tmp = s.tmp
  | .sPodfRd => SameChange l s
  | .sPodfWr => SameChange l s ∧ l.tmp = s.tmp
  | .sPost => SameChange l s
  | .sRespond => l.status = s.status ∧ l.rdata = s.rdata

/-! ### Rules that read live latches only -/

/-- From other latches `rule` does what it does from `s`, but for the latches, and those then live agree. -/
def AlikeRule (rule : State → State) (l s : State) : Prop :=
  ∃ l', rule (withLatches l s) = withLatches l' (rule s) ∧ LatchesAgree l' (rule s)

/-- The same for a turn that may stop. -/
def AlikeTurn (f : State → Host.Outcome State Fault Refusal) (l s : State) : Prop :=
  ∃ l', f (withLatches l s) = mapNext (withLatches l') (f s) ∧ ∀ t, f s = .next t → LatchesAgree l' t

theorem AlikeRule.turn {rule : State → State} (h : AlikeRule rule l s) : AlikeTurn (fun u => .next (rule u)) l s := by
  obtain ⟨l', he, ha⟩ := h
  exact ⟨l', congrArg _ he, fun t ht => Host.Outcome.next.inj ht ▸ ha⟩

theorem AlikeTurn.congr {f g : State → Host.Outcome State Fault Refusal} (h : AlikeTurn f l s)
    (hl : g (withLatches l s) = f (withLatches l s)) (hs : g s = f s) : AlikeTurn g l s := by
  obtain ⟨l', he, ha⟩ := h
  exact ⟨l', by rw [hl, hs, he], fun t ht => ha t (hs ▸ ht)⟩

/-- A choice made alike is followed alike. -/
theorem AlikeRule.ite {c : State → Prop} [∀ u, Decidable (c u)] {f g : State → State} (hc : c (withLatches l s) ↔ c s)
    (hf : c s → AlikeRule f l s) (hg : ¬ c s → AlikeRule g l s) :
    AlikeRule (fun u => if c u then f u else g u) l s := by
  unfold AlikeRule
  by_cases h : c s
  · simp only [if_pos h, if_pos (hc.2 h)]; exact hf h
  · simp only [if_neg h, if_neg (mt hc.1 h)]; exact hg h

theorem AlikeTurn.ite {c : State → Prop} [∀ u, Decidable (c u)] {f g : State → Host.Outcome State Fault Refusal}
    (hc : c (withLatches l s) ↔ c s) (hf : c s → AlikeTurn f l s) (hg : ¬ c s → AlikeTurn g l s) :
    AlikeTurn (fun u => if c u then f u else g u) l s := by
  by_cases h : c s
  · exact (hf h).congr (if_pos (hc.2 h)) (if_pos h)
  · exact (hg h).congr (if_neg (mt hc.1 h)) (if_neg h)

@[simp] theorem withLatches_vphase (l s : State) : (withLatches l s).vphase = s.vphase := rfl

/-! ### Entry, table and reader -/

theorem alikeRule_ruleEntry (ha : l.arg = s.arg) (h0 : l.rdata = s.rdata) : AlikeRule ruleEntry l s := by
  have error (e : Status) : AlikeRule (raise e) l s := ⟨{ l with status := e }, rfl, rfl, h0⟩
  refine .ite Iff.rfl (fun _ => .ite Iff.rfl (fun _ => ⟨l, rfl, ha, h0⟩) fun _ => error _) fun _ => ?_
  refine .ite Iff.rfl (fun _ => .ite Iff.rfl (fun _ => ?_) fun _ => error _) fun _ => ?_
  · exact ⟨{ l with vUv := l.arg }, rfl, h0, ha, .inl rfl⟩
  · exact .ite Iff.rfl (fun hc => ⟨l, rfl, ha, h0, .inl hc⟩) fun _ => error _

theorem alikeRule_lookupFound (r : Row) (ha : l.arg = s.arg) (h0 : l.rdata = s.rdata) :
    AlikeRule (lookupFound r) l s :=
  .ite Iff.rfl (fun _ => ⟨{ latchRow r l with rdata := packRow r, status := .ok }, rfl, rfl, rfl⟩)
    fun _ => ⟨latchRow r l, rfl, ha, h0, .inr ⟨rfl, rfl, rfl⟩⟩

theorem alikeTurn_ruleLookup (ha : l.arg = s.arg) (h0 : l.rdata = s.rdata) : AlikeTurn ruleLookup l s := by
  refine .ite Iff.rfl (fun _ => ?_) fun _ => ⟨l, rfl, fun _ h => nomatch h⟩
  have hrow : lookupRow (withLatches l s).cfg (withLatches l s).arg = lookupRow s.cfg s.arg :=
    congrArg (lookupRow s.cfg) ha
  unfold AlikeTurn
  beta_reduce
  rw [hrow]
  rcases lookupRow s.cfg s.arg with _ | r
  · exact AlikeRule.turn ⟨{ l with status := .unsupportedFrequency }, rfl, rfl, h0⟩
  · exact (alikeRule_lookupFound r ha h0).turn

theorem alikeRule_ruleRdDiv (ha : l.arg = s.arg) (h0 : l.rdata = s.rdata) (hc : s.cmd = opRdfreq ∨ SameOp l s) :
    AlikeRule ruleRdDiv l s :=
  ⟨{ l with rdDiv := divOf s.cfg (busValue .pll s) }, rfl, ha, h0, hc, rfl⟩

theorem alikeRule_preRaise (h : SameChange l s) : AlikeRule preRaise l s := by
  obtain ⟨h0, hop, hi⟩ := id h
  exact .ite (by rw [← hi]; rfl) (fun _ => ⟨{ l with vUv := l.opUv }, rfl, h0, hop.2.2, .inr h⟩) fun _ => ⟨l, rfl, h⟩

/-- Direction and target are judged on ARG and CUR_HZ alone (44 R146). -/
theorem alikeRule_compareAndDirect (ha : l.arg = s.arg) (h0 : l.rdata = s.rdata) (hop : SameOp l s)
    (hcur : l.curHz = s.curHz) : AlikeRule compareAndDirect l s := by
  refine .ite (by rw [← ha, ← hcur]; rfl) (fun _ => ⟨{ l with status := .ok }, rfl, rfl, h0⟩) fun _ => ?_
  exact alikeRule_preRaise (l := { l with inc := increasing l.arg l.curHz })
    (s := { s with inc := increasing s.arg s.curHz }) ⟨h0, hop, by rw [ha, hcur]⟩

theorem alikeRule_ruleRdPodf (ha : l.arg = s.arg) (h0 : l.rdata = s.rdata) (hc : s.cmd = opRdfreq ∨ SameOp l s)
    (hd : l.rdDiv = s.rdDiv) : AlikeRule ruleRdPodf l s := by
  have hcur : freq l.rdDiv (podfOf s.cfg s.cdiv) = freq s.rdDiv (podfOf s.cfg s.cdiv) := by rw [hd]
  refine .ite Iff.rfl (fun _ => ⟨{ l with
    rdPodf := podfOf s.cfg s.cdiv, curHz := freq l.rdDiv (podfOf s.cfg s.cdiv)
    rdata := freq l.rdDiv (podfOf s.cfg s.cdiv), status := .ok }, rfl, rfl, hcur⟩) fun hr => ?_
  exact alikeRule_compareAndDirect (s := readPodf s)
    (l := { l with rdPodf := podfOf s.cfg s.cdiv, curHz := freq l.rdDiv (podfOf s.cfg s.cdiv) })
    ha h0 (hc.resolve_left hr) hcur

/-! ### The controller -/

theorem alikeRule_ruleVQuant (h : SameCall l s) : AlikeRule ruleVQuant l s :=
  ⟨{ l with vCore := quant l.vUv }, rfl, h, congrArg quant h.2.1⟩

/-- The return reads VPHASE, which is no latch of R13, and hands on what the caller still reads (43 R129). -/
theorem alikeTurn_vReturn (h : SameCall l s) : AlikeTurn vReturn l s := by
  obtain ⟨h0, _, hcall⟩ := h
  have done : AlikeRule (fun u => succeed { u with vphase := .none }) l s := ⟨{ l with status := .ok }, rfl, rfl, h0⟩
  rcases hv : s.vphase
  case none => exact ⟨l, by simp only [vReturn, withLatches_vphase, hv]; rfl, fun t ht => by simp [vReturn, hv] at ht⟩
  case pre =>
    have hchange : SameChange l s := hcall.resolve_left (by simp [hv])
    exact .congr (f := fun u => .next { u with vphase := .none, st := .sBypsrcRd })
      (AlikeRule.turn ⟨l, rfl, hchange⟩) (by simp only [vReturn, withLatches_vphase, hv]) (by simp only [vReturn, hv])
  all_goals exact .congr done.turn (by simp only [vReturn, withLatches_vphase, hv]) (by simp only [vReturn, hv])

theorem alikeTurn_ruleVRdCur (h : SameCall l s) (hq : l.vCore = s.vCore) : AlikeTurn ruleVRdCur l s := by
  refine .ite (by rw [← hq]; rfl) (fun _ => ?_) fun _ => AlikeRule.turn
    ⟨{ l with vOld := vcoreOf s.cfg s.vtarg, vSoc := socCode l.vCore }, rfl, h, hq, rfl, congrArg socCode hq⟩
  exact alikeTurn_vReturn (l := { l with vOld := vcoreOf s.cfg s.vtarg })
    (s := { afterRead .vtarg s with vOld := vcoreOf s.cfg s.vtarg }) h

theorem alikeRule_ruleVRmwRd (h : SameCall l s) (hq : l.vCore = s.vCore) (ho : l.vOld = s.vOld) (hs : l.vSoc = s.vSoc) :
    AlikeRule ruleVRmwRd l s :=
  ⟨{ l with tmp := s.vtarg }, rfl, h, hq, ho, hs, rfl⟩

theorem alikeRule_ruleVRmwWr (h : SameCall l s) (hq : l.vCore = s.vCore) (ho : l.vOld = s.vOld) (hs : l.vSoc = s.vSoc)
    (ht : l.tmp = s.tmp) : AlikeRule ruleVRmwWr l s := by
  have hw : withTargets s.cfg l.tmp l.vCore l.vSoc = withTargets s.cfg s.tmp s.vCore s.vSoc := by rw [ht, hq, hs]
  refine ⟨{ l with dly := s.cfg.settleTicks }, ?_, h, hq, ho, hs, rfl⟩
  exact congrArg (fun w => { memWrite .vtarg w (withLatches l s) with dly := s.cfg.settleTicks, st := .sVSettle }) hw

theorem latchesAgree_sVSettle (hst : s.st = .sVSettle) (h : SameCall l s) (hq : l.vCore = s.vCore)
    (ho : l.vOld = s.vOld) (hs : l.vSoc = s.vSoc) (hd : l.dly = s.dly) : LatchesAgree l s := by
  unfold LatchesAgree; rw [hst]; exact ⟨h, hq, ho, hs, hd⟩

theorem alikeRule_ruleVSettle (hst : s.st = .sVSettle) (h : SameCall l s) (hq : l.vCore = s.vCore)
    (ho : l.vOld = s.vOld) (hs : l.vSoc = s.vSoc) (hd : l.dly = s.dly) : AlikeRule ruleVSettle l s :=
  .ite (by rw [← hd]; rfl) (fun _ => ⟨l, rfl, h, hq, ho, hs⟩) fun _ =>
    ⟨{ l with dly := l.dly - 1#32 }, rfl,
      latchesAgree_sVSettle (s := countDown s) hst h hq ho hs (congrArg (· - 1#32) hd)⟩

theorem alikeTurn_ruleVDiag (h : SameCall l s) (hq : l.vCore = s.vCore) (ho : l.vOld = s.vOld)
    (hs : l.vSoc = s.vSoc) : AlikeTurn ruleVDiag l s := by
  have hev : (⟨l.vOld, l.vCore, l.vSoc, l.vUv⟩ : DiagEvent) = ⟨s.vOld, s.vCore, s.vSoc, s.vUv⟩ := by
    rw [ho, hq, hs, h.2.1]
  have he : emitDiag (withLatches l s) = withLatches l (emitDiag s) :=
    congrArg (fun e => { withLatches l s with diag := s.diag ++ [e] }) hev
  obtain ⟨l', hr, ha⟩ := alikeTurn_vReturn (s := emitDiag s) h
  exact ⟨l', (congrArg vReturn he).trans hr, ha⟩

/-! ### PLL, post-divider and response -/

theorem memWrite_withLatches (r : Reg) (w : Word) (l s : State) :
    memWrite r w (withLatches l s) = withLatches l (memWrite r w s) := by
  cases r <;> rfl

/-- A write half whose word comes out the same. -/
theorem alikeRule_write {r : Reg} {x : SeqState} {word : State → Word} (hw : word (withLatches l s) = word s)
    (ha : LatchesAgree l { memWrite r (word s) s with st := x }) :
    AlikeRule (fun u => { memWrite r (word u) u with st := x }) l s := by
  have hmem : memWrite r (word (withLatches l s)) (withLatches l s) = withLatches l (memWrite r (word s) s) := by
    rw [hw, memWrite_withLatches]
  exact ⟨l, congrArg (fun u => { u with st := x }) hmem, ha⟩

theorem startPolls_of_none (h : s.cfg.lockDeadline = none) : startPolls s = s := by simp only [startPolls, h]

theorem startPolls_of_some {n : Word} (h : s.cfg.lockDeadline = some n) : startPolls s = { s with polls := 0#32 } := by
  simp only [startPolls, h]

/-- POLLS is cleared on entering the wait whenever a deadline makes it count (44 R153). -/
theorem alikeRule_startPolls (h : SameChange l s) :
    AlikeRule (fun u => { startPolls u with st := .sWaitLock }) l s := by
  unfold AlikeRule
  beta_reduce
  rcases hn : s.cfg.lockDeadline with _ | n
  · rw [startPolls_of_none hn, startPolls_of_none (s := withLatches l s) hn]
    exact ⟨l, rfl, h, .inl hn⟩
  · rw [startPolls_of_some hn, startPolls_of_some (s := withLatches l s) hn]
    exact ⟨{ l with polls := 0#32 }, rfl, h, .inr rfl⟩

theorem alikeRule_ruleDivselWr (h : SameChange l s) (ht : l.tmp = s.tmp) : AlikeRule ruleDivselWr l s := by
  have hw : insertField l.tmp s.cfg.divOff s.cfg.divMask l.opDiv =
      insertField s.tmp s.cfg.divOff s.cfg.divMask s.opDiv := by rw [ht, h.2.1.1]
  obtain ⟨l', he, ha⟩ := alikeRule_startPolls
    (s := memWrite .pll (insertField s.tmp s.cfg.divOff s.cfg.divMask s.opDiv) s) h
  refine ⟨l', Eq.trans ?_ he, ha⟩
  exact congrArg (fun w => { startPolls (memWrite .pll w (withLatches l s)) with st := .sWaitLock }) hw

theorem latchesAgree_sWaitLock (hst : s.st = .sWaitLock) (h : SameChange l s)
    (hp : s.cfg.lockDeadline = none ∨ l.polls = s.polls) : LatchesAgree l s := by
  unfold LatchesAgree; rw [hst]; exact ⟨h, hp⟩

theorem pollFailed_of_none (h : s.cfg.lockDeadline = none) : pollFailed s = s := by simp only [pollFailed, h]

theorem pollFailed_of_some {n : Word} (h : s.cfg.lockDeadline = some n) :
    pollFailed s = if n.toNat ≤ (s.polls + 1#32).toNat then raise .hardwareTimeout { s with polls := s.polls + 1#32 }
      else { s with polls := s.polls + 1#32 } := by
  simp only [pollFailed, h]

/-- POLLS is read only under a deadline (44 R155). -/
theorem alikeRule_pollFailed (hst : s.st = .sWaitLock) (h : SameChange l s)
    (hp : s.cfg.lockDeadline = none ∨ l.polls = s.polls) : AlikeRule pollFailed l s := by
  unfold AlikeRule
  rcases hn : s.cfg.lockDeadline with _ | n
  · rw [pollFailed_of_none hn, pollFailed_of_none (s := withLatches l s) hn]
    exact ⟨l, rfl, latchesAgree_sWaitLock hst h hp⟩
  · have hpolls : l.polls = s.polls := hp.resolve_left (by simp [hn])
    have hnext : l.polls + 1#32 = s.polls + 1#32 := by rw [hpolls]
    rw [pollFailed_of_some hn, pollFailed_of_some (s := withLatches l s) hn]
    refine AlikeRule.ite (s := s) (c := fun u => n.toNat ≤ (u.polls + 1#32).toNat)
      (f := fun u => raise .hardwareTimeout { u with polls := u.polls + 1#32 })
      (g := fun u => { u with polls := u.polls + 1#32 }) (by rw [← hpolls]; rfl)
      (fun _ => ⟨{ l with polls := l.polls + 1#32, status := .hardwareTimeout }, rfl, rfl, h.1⟩)
      fun _ => ⟨{ l with polls := l.polls + 1#32 }, rfl, ?_⟩
    exact latchesAgree_sWaitLock (s := { s with polls := s.polls + 1#32 }) hst h (.inr hnext)

theorem alikeRule_ruleWaitLock (hst : s.st = .sWaitLock) (h : SameChange l s)
    (hp : s.cfg.lockDeadline = none ∨ l.polls = s.polls) : AlikeRule ruleWaitLock l s :=
  .ite Iff.rfl (fun _ => ⟨l, rfl, h⟩) fun _ => alikeRule_pollFailed (s := afterRead .pll s) hst h hp

theorem alikeRule_rulePost (h : SameChange l s) : AlikeRule rulePost l s :=
  .ite (by rw [← h.2.2]; rfl) (fun _ => ⟨{ l with status := .ok }, rfl, rfl, h.1⟩)
    fun _ => ⟨{ l with vUv := l.opUv }, rfl, h.1, h.2.1.2.2, .inr h⟩

theorem alikeRule_respond (hs : l.status = s.status) (h0 : l.rdata = s.rdata) : AlikeRule respond l s := by
  have hr : (⟨l.status, l.rdata⟩ : Response) = ⟨s.status, s.rdata⟩ := by rw [hs, h0]
  exact ⟨l, congrArg (fun r => { withLatches l s with
    rsp := s.rsp ++ [r], rspOut := s.rspOut ++ [r], cmd := 0#4, st := .sIdle }) hr, trivial⟩

/-! ### Every rule, every move, every run -/

theorem AlikeTurn.atState {x : SeqState} {f : State → Host.Outcome State Fault Refusal} (hst : s.st = x)
    (hr : ∀ {u : State}, u.st = x → ruleOf u = f u) (h : AlikeTurn f l s) : AlikeTurn ruleOf l s :=
  h.congr (hr (u := withLatches l s) hst) (hr hst)

theorem alikeTurn_ruleOf (h : LatchesAgree l s) : AlikeTurn ruleOf l s := by
  have ha := h
  unfold LatchesAgree at ha
  rcases hst : s.st <;> rw [hst] at ha
  case sIdle =>
    exact .atState (f := .next) hst (fun hu => by simp only [ruleOf, hu])
      (AlikeRule.turn (rule := id) ⟨l, rfl, h⟩)
  case sEntry => exact .atState hst ruleOf_sEntry (alikeRule_ruleEntry ha.1 ha.2).turn
  case sLookup => exact .atState hst ruleOf_sLookup (alikeTurn_ruleLookup ha.1 ha.2)
  case sRdDiv =>
    obtain ⟨harg, h0, hc⟩ := ha
    exact .atState hst ruleOf_sRdDiv (alikeRule_ruleRdDiv harg h0 hc).turn
  case sRdPodf =>
    obtain ⟨harg, h0, hc, hd⟩ := ha
    exact .atState hst ruleOf_sRdPodf (alikeRule_ruleRdPodf harg h0 hc hd).turn
  case sVQuant => exact .atState hst ruleOf_sVQuant (alikeRule_ruleVQuant ha).turn
  case sVRdCur => exact .atState hst ruleOf_sVRdCur (alikeTurn_ruleVRdCur ha.1 ha.2)
  case sVRmwRd =>
    obtain ⟨hc, hq, ho, hs⟩ := ha
    exact .atState hst ruleOf_sVRmwRd (alikeRule_ruleVRmwRd hc hq ho hs).turn
  case sVRmwWr =>
    obtain ⟨hc, hq, ho, hs, ht⟩ := ha
    exact .atState hst ruleOf_sVRmwWr (alikeRule_ruleVRmwWr hc hq ho hs ht).turn
  case sVSettle =>
    obtain ⟨hc, hq, ho, hs, hd⟩ := ha
    exact .atState hst ruleOf_sVSettle (alikeRule_ruleVSettle hst hc hq ho hs hd).turn
  case sVDiag =>
    obtain ⟨hc, hq, ho, hs⟩ := ha
    exact .atState hst ruleOf_sVDiag (alikeTurn_ruleVDiag hc hq ho hs)
  case sBypsrcRd =>
    exact .atState hst ruleOf_sBypsrcRd
      (AlikeRule.turn (rule := ruleBypsrcRd) ⟨{ l with tmp := busValue .pll s }, rfl, ha, rfl⟩)
  case sBypsrcWr =>
    exact .atState hst ruleOf_sBypsrcWr
      (AlikeRule.turn (rule := ruleBypsrcWr) (alikeRule_write (by rw [← ha.2]; rfl) ha.1))
  case sBypsetRd =>
    exact .atState hst ruleOf_sBypsetRd
      (AlikeRule.turn (rule := ruleBypsetRd) ⟨{ l with tmp := busValue .pll s }, rfl, ha, rfl⟩)
  case sBypsetWr =>
    exact .atState hst ruleOf_sBypsetWr
      (AlikeRule.turn (rule := ruleBypsetWr) (alikeRule_write (by rw [← ha.2]; rfl) ha.1))
  case sDivselRd =>
    exact .atState hst ruleOf_sDivselRd
      (AlikeRule.turn (rule := ruleDivselRd) ⟨{ l with tmp := busValue .pll s }, rfl, ha, rfl⟩)
  case sDivselWr => exact .atState hst ruleOf_sDivselWr (alikeRule_ruleDivselWr ha.1 ha.2).turn
  case sWaitLock => exact .atState hst ruleOf_sWaitLock (alikeRule_ruleWaitLock hst ha.1 ha.2).turn
  case sUnbypRd =>
    exact .atState hst ruleOf_sUnbypRd
      (AlikeRule.turn (rule := ruleUnbypRd) ⟨{ l with tmp := busValue .pll s }, rfl, ha, rfl⟩)
  case sUnbypWr =>
    exact .atState hst ruleOf_sUnbypWr
      (AlikeRule.turn (rule := ruleUnbypWr) (alikeRule_write (by rw [← ha.2]; rfl) ha.1))
  case sPodfRd =>
    exact .atState hst ruleOf_sPodfRd
      (AlikeRule.turn (rule := rulePodfRd) ⟨{ l with tmp := busValue .cdiv s }, rfl, ha, rfl⟩)
  case sPodfWr =>
    obtain ⟨hc, ht⟩ := ha
    obtain ⟨_, ⟨_, hpodf, _⟩, _⟩ := id hc
    exact .atState hst ruleOf_sPodfWr
      (AlikeRule.turn (rule := rulePodfWr) (alikeRule_write (by rw [← ht, ← hpodf]; rfl) hc))
  case sPost => exact .atState hst ruleOf_sPost (alikeRule_rulePost ha).turn
  case sRespond => exact .atState hst ruleOf_sRespond (alikeRule_respond ha.1 ha.2).turn

/-- No stand-alone micro-operation runs or waits at the port. -/
def NoMops (s : State) : Prop := s.md = none ∧ ∀ w ∈ s.port, isCmdWord w = true

/-- At rest with no micro-operation at the port: the sequencer waits, or accepts a command word. -/
theorem alikeTurn_seqTurn (hn : NoMops s) (h : LatchesAgree l s) : AlikeTurn seqTurn l s := by
  obtain ⟨hm, hport⟩ := hn
  by_cases hs : s.st = .sIdle
  · have hturn := seqTurn_atRest hm hs
    have hturn' := seqTurn_atRest (s := withLatches l s) hm hs
    rw [show (withLatches l s).port = s.port from rfl] at hturn'
    rcases hp : s.port with _ | ⟨cw | x, rest⟩ <;> rw [hp] at hturn hturn' hport
    · exact .congr (AlikeRule.turn (rule := id) ⟨l, rfl, h⟩) hturn' hturn
    · exact .congr (AlikeRule.turn (rule := fun u => accept (cwOp cw) (cwArg cw) (dropPort u))
        ⟨{ l with arg := cwArg cw, rdata := 0#32 }, rfl, rfl, rfl⟩) hturn' hturn
    · exact absurd (hport (.mop x) (by simp)) (by simp [isCmdWord])
  · exact (alikeTurn_ruleOf h).congr (seqTurn_inFlight (s := withLatches l s) ⟨hm, hs⟩) (seqTurn_inFlight ⟨hm, hs⟩)

theorem alikeTurn_takeMove (m : Move) (hn : NoMops s) (h : LatchesAgree l s) : AlikeTurn (takeMove m) l s := by
  cases m with
  | sequencer => exact alikeTurn_seqTurn hn h
  | hostPresent w => exact AlikeRule.turn (rule := hostPresent w) ⟨l, rfl, h⟩
  | hostConsume => exact AlikeRule.turn (rule := hostConsume) ⟨l, rfl, h⟩
  | pllLocks => exact AlikeRule.turn (rule := pllLocks) ⟨l, rfl, h⟩
  | pllDropsLock =>
    exact AlikeRule.turn (rule := pllDropsLock) (.ite Iff.rfl (fun _ => ⟨l, rfl, h⟩) fun _ => ⟨l, rfl, h⟩)
  | railsSettle => exact AlikeRule.turn (rule := railsSettle) ⟨l, rfl, h⟩
  | resetAsserted =>
    exact AlikeTurn.ite (f := fun u => .next (resetEvent u)) (g := fun _ => .refused .resetInFlight) Iff.rfl
      (fun _ => AlikeRule.turn ⟨State.reset, rfl, trivial⟩) fun _ => ⟨l, rfl, fun _ ht => nomatch ht⟩
  | foreignWrite r w => exact ⟨l, rfl, fun _ ht => nomatch ht⟩

theorem noMops_seqTurn (hn : NoMops s) (h : seqTurn s = .next t) : NoMops t := by
  obtain ⟨hm, hport⟩ := hn
  cases turn_cases h with
  | wait _ _ _ e => exact e ▸ ⟨hm, hport⟩
  | take _ _ cw rest hp e =>
    subst e
    exact ⟨hm, fun w hw => hport w (List.mem_of_mem_tail hw)⟩
  | start _ _ d rest hp => exact absurd (hport (.mop d) (by simp [hp])) (by simp [isCmdWord])
  | goOn d md => exact absurd (hm.symm.trans md) (by simp)
  | rule _ run =>
    have hframe := ruleFrame_ruleOf run
    exact ⟨hframe.md.trans hm, hframe.port.symm ▸ hport⟩

theorem noMops_takeMove {m : Move} (hm : presentsNoMop m = true) (hn : NoMops s) (h : takeMove m s = .next t) :
    NoMops t := by
  cases m with
  | sequencer => exact noMops_seqTurn hn h
  | hostPresent w =>
    cases h
    refine ⟨hn.1, fun v hv => ?_⟩
    rcases List.mem_append.1 hv with hv | hv
    · exact hn.2 v hv
    · exact List.mem_singleton.1 hv ▸ hm
  | hostConsume | pllLocks | railsSettle => cases h; exact hn
  | pllDropsLock => cases h; rw [pllDropsLock_eq]; exact hn
  | resetAsserted =>
    change resetAsserted s = _ at h
    unfold resetAsserted at h
    split at h <;> cases h
    exact hn
  | foreignWrite r w => cases h

/-- Runs of a schedule from states that agree in the live latches end in states that differ in latches only. -/
theorem runMoves_alike (ms : List Move) (hms : ∀ m ∈ ms, presentsNoMop m = true) :
    ∀ {l s : State}, NoMops s → LatchesAgree l s → runMoves ms s = .next t →
      ∃ l', runMoves ms (withLatches l s) = .next (withLatches l' t) := by
  induction ms with
  | nil => intro l s _ _ h; cases h; exact ⟨l, rfl⟩
  | cons m ms ih =>
    intro l s hn ha h
    obtain ⟨l₁, he, hagree⟩ := alikeTurn_takeMove m hn ha
    rw [runMoves] at h ⊢
    rcases hmv : takeMove m s with u | f | r <;> rw [hmv] at h he
    · rw [he]
      exact ih (fun m' hm' => hms m' (.tail m hm')) (noMops_takeMove (hms m (.head ms)) hn hmv) (hagree u hmv) h
    · cases h
    · cases h

/-- Settles O57: at rest no latch is live, so any two sets of latches agree there. -/
theorem latchesCarryNothingBetweenCommands : Obligations.LatchesCarryNothingBetweenCommands := by
  intro s l t ms _ hst hmd hport hms h
  refine runMoves_alike ms hms ⟨hmd, hport⟩ ?_ h
  unfold LatchesAgree; rw [hst]; trivial

end Sys2Proof.Machine
end

section
/-! PROOF. One bus transaction per step (00_scope.md R8; 20_memory.md R44, R52): a sequencer turn is a `BusStep`, and no
other agent touches the bus or a register's stored bits. -/

namespace Sys2Proof.Machine

variable {s t : State}

/-- A bus write stores into the register it addresses and into no other. -/
theorem storeReg_otherRegisters (r : Reg) (w : Word) (s : State) :
    (r ≠ .pll → (storeReg r w s).pll = s.pll) ∧ (r ≠ .cdiv → (storeReg r w s).cdiv = s.cdiv) ∧
      (r ≠ .vtarg → (storeReg r w s).vtarg = s.vtarg) := by
  cases r <;> simp

/-- The sequencer's turn makes at most one transaction; another agent's move makes none and stores nothing. -/
theorem step_sequencer_or_quiet (h : step s = .next t) :
    BusStep { s with sched := s.sched.tail } t ∨ (t.bus = s.bus ∧ RegistersKept s t) := by
  cases step_cases h with
  | sequencer _ turn => exact .inl (busStep_turn turn)
  | present _ _ _ e | consume _ _ e | lock _ _ e | drop _ _ e | settle _ _ e | reset _ _ _ _ e =>
    subst e; exact .inr ⟨rfl, rfl, rfl, rfl⟩

/-- Settles O38: the cases are those of `BusStep`, which sees of `s` only the registers, the lock and the parameters. -/
theorem atMostOneTransactionPerStep : Obligations.AtMostOneTransactionPerStep := by
  intro s t h
  rcases step_sequencer_or_quiet h with hb | hq
  · cases hb with
    | quiet bus pll _ cdiv vtarg => exact .inl ⟨bus, pll, cdiv, vtarg⟩
    | read r bus pll _ cdiv vtarg => exact .inr (.inl ⟨r, bus, pll, cdiv, vtarg⟩)
    | write r w bus pll _ cdiv vtarg =>
      obtain ⟨hp, hc, hv⟩ := storeReg_otherRegisters r w { s with sched := s.sched.tail }
      exact .inr (.inr ⟨r, w, bus, fun n => pll.trans (hp n), fun n => cdiv.trans (hc n), fun n => vtarg.trans (hv n)⟩)
  · exact .inl hq

end Sys2Proof.Machine
end

section
/-! PROOF. Encoding and decoding are inverse (30_encoding.md R60 to R65), and the descriptors that decode to nothing are
refused (R64, R65; 93 U8). -/

namespace Sys2Proof

/-! ### Command words (R60 to R63) -/

/-- A reserved opcode is none of the four commands' (R61, R63). -/
theorem ne_of_reservedOpcode : ∀ {op : BitVec 4}, Machine.ReservedOpcode op →
    op ≠ opSetfreq ∧ op ≠ opRdfreq ∧ op ≠ opSetop ∧ op ≠ opLookup := by
  decide

theorem decode_cmdWord_of_reserved {op : BitVec 4} (h : Machine.ReservedOpcode op) (arg : Word) :
    decode (.cmd (cmdWord op arg)) = .error (.reservedOpcode op arg) := by
  obtain ⟨hsetfreq, hrdfreq, hsetop, hlookup⟩ := ne_of_reservedOpcode h
  rw [decode_cmdWord, if_neg hsetfreq, if_neg hrdfreq, if_neg hsetop, if_neg hlookup]

/-- A command word of given opcode and operand is the encoding of what it decodes to. -/
theorem encode_of_decode_cmdWord {op : BitVec 4} {arg : Word} {i : Instr}
    (h : decode (.cmd (cmdWord op arg)) = .ok i) : encode i = .cmd (cmdWord op arg) := by
  rw [decode_cmdWord] at h
  split_ifs at h with hsetfreq hrdfreq hsetop hlookup
  · cases h; rw [hsetfreq]; rfl
  · cases h; rw [hrdfreq]; rfl
  · cases h; rw [hsetop]; rfl
  · cases h; rw [hlookup]; rfl

/-! ### Descriptors (R64, R65) -/

/-- A descriptor of a kind below DELAY's is decoded by its register, then by its kind (R64, R65). -/
theorem decode_mop_of_lt {d : BitVec 25} (hk : (mdKind d).toNat < 8) :
    decode (.mop d) = (regOfCode (mdReg d)).elim (.error .reservedReg) (decodeKind d) := by
  have hlt : mdKind d < kDelay := hk
  rw [show decode (.mop d) = decodeMop d from rfl, decodeMop, if_neg (BitVec.ne_of_lt hlt), if_neg (BitVec.lt_asymm hlt)]
  rcases regOfCode (mdReg d) <;> rfl

/-- What the decoder answers on the fields of a descriptor that names a register, by its kind (R65). -/
theorem decode_mopWord {kind : BitVec 4} (hk : kind.toNat < 8) (r : Reg) (off : BitVec 5) (mask val : BitVec 7) :
    decode (.mop (mopWord kind r.code off mask val)) =
      if kind = kGet then .ok (.get r off mask)
      else if kind = kSet then .ok (.set r off)
      else if kind = kClear then .ok (.clear r off)
      else if kind = kSetfield then .ok (.setfield r off mask val)
      else if kind = kClearfield then .ok (.clearfield r off mask)
      else if kind = kWaituntil then .ok (.waituntil r off mask val)
      else if kind = kRead then .ok (.read r)
      else if kind = kWrite then .ok (.write r)
      else .error (.reservedKind kind) := by
  rw [decode_mop_of_lt (by simpa using hk), mdReg_mopWord, regOfCode_code, Option.elim_some, decodeKind]
  simp only [mdKind_mopWord, mdOff_mopWord, mdMask_mopWord, mdVal_mopWord]

/-- Decoding undoes encoding, whether or not the operands meet 40_register_primitives.md R90. -/
theorem decode_encode (i : Instr) : decode (encode i) = .ok i := by
  cases i with
  | setfreq hz => exact decode_cmdWord opSetfreq hz
  | rdfreq ignored => exact decode_cmdWord opRdfreq ignored
  | setop uv => exact decode_cmdWord opSetop uv
  | lookup hz => exact decode_cmdWord opLookup hz
  | get r off mask => exact decode_mopWord (kind := kGet) (by decide) r off mask _
  | set r bit => exact decode_mopWord (kind := kSet) (by decide) r bit _ _
  | clear r bit => exact decode_mopWord (kind := kClear) (by decide) r bit _ _
  | setfield r off mask val => exact decode_mopWord (kind := kSetfield) (by decide) r off mask val
  | clearfield r off mask => exact decode_mopWord (kind := kClearfield) (by decide) r off mask _
  | waituntil r off mask expected => exact decode_mopWord (kind := kWaituntil) (by decide) r off mask expected
  | read r => exact decode_mopWord (kind := kRead) (by decide) r _ _ _
  | write r => exact decode_mopWord (kind := kWrite) (by decide) r _ _ _
  | delay => rfl

/-- A word decodes to the instruction it encodes. -/
theorem decode_of_encode_eq {w : FetchWord} {i : Instr} (h : encode i = w) : decode w = .ok i := h ▸ decode_encode i

/-- The eight kinds below DELAY's all have a meaning (R65). -/
theorem kind_cases_of_lt : ∀ {k : BitVec 4}, k.toNat < 8 →
    k = kGet ∨ k = kSet ∨ k = kClear ∨ k = kSetfield ∨ k = kClearfield ∨ k = kWaituntil ∨ k = kRead ∨ k = kWrite := by
  decide

theorem decodeKind_isOk_of_lt {d : BitVec 25} (hk : (mdKind d).toNat < 8) (r : Reg) : ∃ i, decodeKind d r = .ok i := by
  unfold decodeKind
  rcases kind_cases_of_lt hk with h | h | h | h | h | h | h | h <;> (rw [h]; exact ⟨_, rfl⟩)

/-- Register code 3 is the reserved one (R64). -/
theorem regOfCode_eq_none_iff : ∀ c : BitVec 2, regOfCode c = none ↔ c = 3#2 := by decide

/-- DELAY uses no field, so its descriptor decodes whatever the fields hold (R73). -/
theorem decode_mop_delay {d : BitVec 25} (hk : mdKind d = kDelay) : decode (.mop d) = .ok .delay := by
  rw [show decode (.mop d) = decodeMop d from rfl, decodeMop, if_pos hk]

/-- Kinds above DELAY's are reserved (R65). -/
theorem decode_mop_of_reservedKind {d : BitVec 25} (hk : 8 < (mdKind d).toNat) :
    decode (.mop d) = .error (.reservedKind (mdKind d)) := by
  have hgt : mdKind d > kDelay := hk
  rw [show decode (.mop d) = decodeMop d from rfl, decodeMop, if_neg (BitVec.ne_of_lt hgt).symm, if_pos hgt]

/-- Below DELAY's kind, a descriptor decodes unless its register is the reserved one (R64). -/
theorem decode_mop_isOk_iff_of_lt {d : BitVec 25} (hk : (mdKind d).toNat < 8) :
    (∃ i, decode (.mop d) = .ok i) ↔ mdReg d ≠ 3#2 := by
  rw [ne_eq, ← regOfCode_eq_none_iff]
  rcases hr : regOfCode (mdReg d) with _ | r
  · simp [decode_mop_of_lt hk, hr]
  · simp [decode_mop_of_lt hk, hr, decodeKind_isOk_of_lt hk r]

/-- The descriptors that decode to no instruction (R64, R65). -/
theorem decode_mop_ne_ok_iff (d : BitVec 25) :
    (∀ i, decode (.mop d) ≠ .ok i) ↔ 9 ≤ (mdKind d).toNat ∨ (mdKind d ≠ kDelay ∧ mdReg d = 3#2) := by
  rcases Nat.lt_trichotomy (mdKind d).toNat 8 with hk | hk | hk
  · have hne : mdKind d ≠ kDelay := fun e => by rw [e] at hk; exact absurd hk (by decide)
    have h9 : ¬ 9 ≤ (mdKind d).toNat := by omega
    have := not_congr (decode_mop_isOk_iff_of_lt hk)
    simpa [h9, hne] using this
  · have he : mdKind d = kDelay := BitVec.eq_of_toNat_eq hk
    simp [decode_mop_delay he, he, kDelay]
  · simp [decode_mop_of_reservedKind hk, show 9 ≤ (mdKind d).toNat from hk]

end Sys2Proof

namespace Sys2Proof.Machine

/-- A descriptor that decodes to nothing is refused (93 U8). -/
theorem runWord_mop_of_ne_ok {d : BitVec 25} (h : ∀ i, decode (.mop d) ≠ .ok i) (s : State) :
    runWord (.mop d) s = .refused .reservedDescriptor := by
  rcases decode_mop_cases d with ⟨i, hd, _⟩ | ⟨k, hd⟩ | hd
  · exact absurd hd (h i)
  · rw [runWord, hd]
  · rw [runWord, hd]

/-- A resting sequencer takes the descriptor that is oldest at the port (44 R141; log 10). -/
theorem step_takes_mop {s : State} {d : BitVec 25} {rest : List FetchWord} (hmoves : SequencerMoves s)
    (hmd : s.md = none) (hst : s.st = .sIdle) (hport : s.port = .mop d :: rest) :
    step s = runWord (.mop d) (startMop d { s with sched := s.sched.tail, port := rest }) := by
  rw [step_of_sequencerMoves hmoves, seqTurn_atRest (s := { s with sched := s.sched.tail }) hmd hst]
  simp only [hport, dropPort, List.tail_cons]

/-- Settles O1: the decoder of each format, on the fields the encoder put in. -/
theorem decodeOfEncodeIsInstruction : Obligations.DecodeOfEncodeIsInstruction :=
  fun i _ => decode_encode i

/-- Settles O2: a command word is its opcode and its operand, and the decoder keeps both. -/
theorem encodeOfDecodedCommandIsWord : Obligations.EncodeOfDecodedCommandIsWord := by
  intro cw i h
  rw [← cmdWord_fields cw] at h ⊢
  exact encode_of_decode_cmdWord h

/-- Settles O3: by the kind below, at or above DELAY's; a resting sequencer that takes such a descriptor has no
instruction to run. -/
theorem reservedDescriptorsAreRefused : Obligations.ReservedDescriptorsAreRefused := by
  refine fun d => ⟨decode_mop_ne_ok_iff d, fun s rest hmoves hmd hst hport hd => ?_⟩
  rw [step_takes_mop hmoves hmd hst hport, runWord_mop_of_ne_ok hd]

/-- Settles O4: each of the words is the encoding of what it stands for. -/
theorem workedWordsDecode : Obligations.WorkedWordsDecode := by
  unfold Obligations.WorkedWordsDecode
  repeat' apply And.intro
  all_goals exact decode_of_encode_eq rfl

end Sys2Proof.Machine
end

section
/-! PROOF. Responses (30_encoding.md R66 to R68; 44 R161): a command in flight emits one in S_RESPOND only, and stays in
flight until it does; what S_RESPOND emits is what the coherence invariant says of STATUS and RDATA there. -/

namespace Sys2Proof.Machine

variable {s t : State}

/-! ### Rules outside S_RESPOND (44 R161) -/

/-- No response is emitted, and the command is not over. -/
def StaysInFlight (s t : State) : Prop := t.rsp = s.rsp ∧ t.st ≠ .sIdle

theorem staysInFlight_vReturn (h : vReturn s = .next t) : StaysInFlight s t := by
  unfold vReturn at h
  split at h <;> cases h <;> exact ⟨rfl, nofun⟩

theorem staysInFlight_ruleEntry (s : State) : StaysInFlight s (ruleEntry s) := by
  unfold ruleEntry
  split_ifs <;> exact ⟨rfl, nofun⟩

theorem staysInFlight_ruleLookup (h : ruleLookup s = .next t) : StaysInFlight s t := by
  unfold ruleLookup at h
  split at h
  · split at h <;> cases h
    · exact ⟨rfl, nofun⟩
    · unfold lookupFound
      split <;> exact ⟨rfl, nofun⟩
  · cases h

theorem staysInFlight_ruleRdPodf (s : State) : StaysInFlight s (ruleRdPodf s) := by
  unfold ruleRdPodf compareAndDirect preRaise
  split_ifs <;> exact ⟨rfl, nofun⟩

theorem staysInFlight_ruleVRdCur (h : ruleVRdCur s = .next t) : StaysInFlight s t := by
  unfold ruleVRdCur at h
  split at h
  · exact staysInFlight_vReturn (s := { afterRead .vtarg s with vOld := _ }) h
  · cases h; exact ⟨rfl, nofun⟩

theorem staysInFlight_ruleVSettle (hst : s.st ≠ .sIdle) : StaysInFlight s (ruleVSettle s) := by
  unfold ruleVSettle
  split
  · exact ⟨rfl, nofun⟩
  · exact ⟨rfl, hst⟩

theorem staysInFlight_ruleDivselWr (s : State) : StaysInFlight s (ruleDivselWr s) := by
  unfold ruleDivselWr startPolls
  split <;> exact ⟨rfl, nofun⟩

theorem staysInFlight_pollFailed (hst : s.st ≠ .sIdle) : StaysInFlight s (pollFailed s) := by
  unfold pollFailed
  split
  · exact ⟨rfl, hst⟩
  · split
    · exact ⟨rfl, nofun⟩
    · exact ⟨rfl, hst⟩

theorem staysInFlight_ruleWaitLock (hst : s.st ≠ .sIdle) : StaysInFlight s (ruleWaitLock s) := by
  unfold ruleWaitLock
  split
  · exact ⟨rfl, nofun⟩
  · exact staysInFlight_pollFailed (s := afterRead .pll s) hst

theorem staysInFlight_rulePost (s : State) : StaysInFlight s (rulePost s) := by
  unfold rulePost
  split <;> exact ⟨rfl, nofun⟩

/-- A rule emits no response and goes on, or is that of S_RESPOND. -/
theorem ruleOf_staysInFlight_or_responds (hf : s.st ≠ .sIdle) (h : ruleOf s = .next t) :
    StaysInFlight s t ∨ (s.st = .sRespond ∧ t = respond s) := by
  unfold ruleOf at h
  rcases hst : s.st <;> rw [hst] at h
  case sIdle => exact absurd hst hf
  case sEntry => cases h; exact .inl (staysInFlight_ruleEntry s)
  case sLookup => exact .inl (staysInFlight_ruleLookup h)
  case sRdPodf => cases h; exact .inl (staysInFlight_ruleRdPodf s)
  case sVRdCur => exact .inl (staysInFlight_ruleVRdCur h)
  case sVSettle => cases h; exact .inl (staysInFlight_ruleVSettle hf)
  case sVDiag => exact .inl (staysInFlight_vReturn (s := emitDiag s) h)
  case sDivselWr => cases h; exact .inl (staysInFlight_ruleDivselWr s)
  case sWaitLock => cases h; exact .inl (staysInFlight_ruleWaitLock hf)
  case sPost => cases h; exact .inl (staysInFlight_rulePost s)
  case sRespond => cases h; exact .inr ⟨rfl, rfl⟩
  all_goals cases h; exact .inl ⟨rfl, nofun⟩

/-! ### Every step -/

/-- A step emits no response and leaves a command in flight as one, or is the step of S_RESPOND. -/
theorem step_silent_or_responds (h : step s = .next t) :
    (t.rsp = s.rsp ∧ (CommandInFlight s → t.st ≠ .sIdle)) ∨
      (s.st = .sRespond ∧ t = respond { s with sched := s.sched.tail }) := by
  cases step_cases h with
  | sequencer _ turn =>
    cases turn with
    | wait _ st _ e => exact .inl ⟨e ▸ rfl, fun hf => absurd st hf.2⟩
    | take _ st _ _ _ e => exact .inl ⟨e ▸ rfl, fun hf => absurd st hf.2⟩
    | start _ st _ _ _ _ frame => exact .inl ⟨frame.rsp, fun hf => absurd st hf.2⟩
    | goOn d md _ frame => exact .inl ⟨frame.rsp, fun hf => absurd (hf.1.symm.trans md) (by simp)⟩
    | rule hf run =>
      rcases ruleOf_staysInFlight_or_responds hf.2 run with ⟨hr, hst⟩ | hr
      · exact .inl ⟨hr, fun _ => hst⟩
      · exact .inr hr
  | present _ _ _ e | consume _ _ e | lock _ _ e | drop _ _ e | settle _ _ e =>
    subst e; exact .inl ⟨rfl, fun hf => hf.2⟩
  | reset _ _ st _ e => subst e; exact .inl ⟨rfl, fun hf => absurd st hf.2⟩

/-- A step that emits a response is that of S_RESPOND, and the response is of STATUS and RDATA. -/
theorem responds_of_emitted {e : Status} {d : Word} (h : step s = .next t) (hr : t.rsp = s.rsp ++ [⟨e, d⟩]) :
    s.st = .sRespond ∧ t = respond { s with sched := s.sched.tail } ∧ e = s.status ∧ d = s.rdata := by
  rcases step_silent_or_responds h with ⟨hsame, _⟩ | ⟨hst, ht⟩
  · rw [hsame] at hr; simp at hr
  · refine ⟨hst, ht, ?_⟩
    rw [ht, respond_rsp] at hr
    simpa [eq_comm] using hr

/-- What STATUS and RDATA hold in S_RESPOND. -/
theorem pathInv_of_respond (hst : s.st = .sRespond) (hp : PathInv s) :
    (s.status ≠ .ok → s.rdata = 0#32) ∧
      (s.cmd = opSetfreq → s.rdata = 0#32 ∧ (s.status = .ok → fieldsHz s = s.arg)) ∧
      (s.cmd = opRdfreq → s.status = .ok ∧ s.rdata = fieldsHz s) := by
  unfold PathInv at hp
  rw [hst] at hp
  obtain ⟨_, herr, hset, _, hrd⟩ := hp
  exact ⟨herr, hset, hrd⟩

/-- A response word is its status code above its data (30_encoding.md R66). -/
theorem response_word_fields (r : Response) :
    r.word.extractLsb' 32 3 = r.status.code ∧ r.word.extractLsb' 0 32 = r.data :=
  ⟨BitVec.extractLsb'_append_eq_left, BitVec.extractLsb'_append_eq_right⟩

/-- Settles O55: only the step of S_RESPOND emits, and what it emits is coherent with the registers, which it leaves as
they are. -/
theorem responsesEndCommandsTruthfully : Obligations.ResponsesEndCommandsTruthfully := by
  refine ⟨fun r => ⟨(response_word_fields r).1, (response_word_fields r).2, by cases r.status <;> rfl⟩, ?_⟩
  intro s t hi h
  refine ⟨?_, fun hf hidle => ?_, fun d _ hc hr => ?_, fun e d _ hc hr => ?_, fun e d hr he => ?_⟩
  · rcases step_silent_or_responds h with ⟨hsame, _⟩ | ⟨hst, ht⟩
    · exact .inl hsame
    · exact .inr ⟨hst, ht ▸ rfl, ht ▸ rfl⟩
  · rcases step_silent_or_responds h with ⟨_, hstays⟩ | ⟨_, ht⟩
    · exact absurd hidle (hstays hf)
    · exact ⟨ht ▸ rfl, ht ▸ rfl⟩
  · obtain ⟨hst, ht, hok, hd⟩ := responds_of_emitted h hr
    obtain ⟨_, hset, _⟩ := pathInv_of_respond hst hi.path
    subst ht
    exact ⟨(hset hc).2 hok.symm, hd.trans (hset hc).1⟩
  · obtain ⟨hst, ht, hs, hd⟩ := responds_of_emitted h hr
    obtain ⟨_, _, hrd⟩ := pathInv_of_respond hst hi.path
    subst ht
    exact ⟨hs.trans (hrd hc).1, hd.trans (hrd hc).2⟩
  · obtain ⟨hst, _, hs, hd⟩ := responds_of_emitted h hr
    obtain ⟨herr, _, _⟩ := pathInv_of_respond hst hi.path
    exact hd.trans (herr (hs ▸ he))

end Sys2Proof.Machine
end

section
/-! PROOF. The reserved opcodes (30_encoding.md R63): accepted like any command word, and answered with
IllegalCommand before the family is looked at. -/

namespace Sys2Proof.Machine

variable {s : State}

/-- A resting sequencer accepts the command word that is oldest at the port (44 R141). -/
theorem step_takes_cmd {cw : BitVec 36} {rest : List FetchWord} (hmoves : SequencerMoves s) (hmd : s.md = none)
    (hst : s.st = .sIdle) (hport : s.port = .cmd cw :: rest) :
    step s = .next (accept (cwOp cw) (cwArg cw) { s with sched := s.sched.tail, port := rest }) := by
  rw [step_of_sequencerMoves hmoves, seqTurn_atRest (s := { s with sched := s.sched.tail }) hmd hst]
  simp only [hport, dropPort, List.tail_cons]

/-- With no move scheduled, a command in flight takes the step of the rule `ST` selects. -/
theorem step_inFlight (hs : s.sched = []) (hf : CommandInFlight s) : step s = ruleOf s := by
  rw [step, takeTurn, hs]
  exact seqTurn_inFlight hf

/-- S_ENTRY answers a reserved opcode with IllegalCommand, whatever the family (44 R142). -/
theorem ruleEntry_of_reserved (h : ReservedOpcode s.cmd) : ruleEntry s = raise .illegalCommand s := by
  obtain ⟨hsetfreq, hrdfreq, hsetop, hlookup⟩ := ne_of_reservedOpcode h
  rw [ruleEntry, if_neg (not_or.2 ⟨hsetfreq, hlookup⟩), if_neg hsetop, if_neg hrdfreq]

/-- An accepted reserved opcode is answered in the two steps of S_ENTRY and S_RESPOND. -/
theorem steps_of_reserved (hs : s.sched = []) (hmd : s.md = none) (hst : s.st = .sEntry) (h : ReservedOpcode s.cmd) :
    step s = .next (raise .illegalCommand s) ∧
      step (raise .illegalCommand s) = .next (respond (raise .illegalCommand s)) := by
  constructor
  · rw [step_inFlight hs ⟨hmd, by simp [hst]⟩, ruleOf_sEntry hst, ruleEntry_of_reserved h]
  · rw [step_inFlight (s := raise .illegalCommand s) hs ⟨hmd, by simp⟩, ruleOf_sRespond rfl]

/-- Settles O23: acceptance, S_ENTRY, S_RESPOND. -/
theorem reservedOpcodeAnswersIllegalCommand : Obligations.ReservedOpcodeAnswersIllegalCommand := by
  intro s cw rest hs hmd hst hcmd hport hop
  have hnone : ∀ i, decode (.cmd cw) ≠ .ok i := fun i hd => by
    rw [← cmdWord_fields cw, decode_cmdWord_of_reserved hop] at hd
    cases hd
  obtain ⟨hentry, hrespond⟩ := steps_of_reserved
    (s := accept (cwOp cw) (cwArg cw) { s with sched := s.sched.tail, port := rest })
    (congrArg List.tail hs) hmd rfl hop
  refine ⟨hnone, _, _, step_takes_cmd (.inl hs) hmd hst hport, hentry, hrespond.trans ?_⟩
  simp [respond, raise, accept, hs, hst, hcmd]

end Sys2Proof.Machine
end

section
/-! PROOF. SET, CLEAR and CLEARFIELD are SETFIELDs (30_encoding.md R71), because the words they write are. -/

namespace Sys2Proof.Machine

/-! ### The word written (40 R81 to R84) -/

/-- Setting a bit inserts 1 into the one-bit field. -/
theorem setBit_eq_insertField (w : Word) (b : BitVec 5) : setBit w b = insertField w b 1#7 1#7 := by
  apply BitVec.eq_of_getLsbD_eq; intro i hi
  rw [setBit_getLsbD, insertField_getLsbD, show fieldBits b 1#7 = bitAt b from rfl, bitAt_getLsbD]
  by_cases h : i = b.toNat <;> simp [h]

/-- Clearing a bit inserts 0 into the one-bit field. -/
theorem clearBit_eq_insertField (w : Word) (b : BitVec 5) : clearBit w b = insertField w b 1#7 0#7 := by
  apply BitVec.eq_of_getLsbD_eq; intro i hi
  rw [clearBit_getLsbD, insertField_getLsbD, show fieldBits b 1#7 = bitAt b from rfl, bitAt_getLsbD]
  by_cases h : i = b.toNat <;> simp [h]

/-- Clearing a field inserts 0 into it. -/
theorem clearFieldBits_eq_insertField (w : Word) (off : BitVec 5) (mask : BitVec 7) :
    clearFieldBits w off mask = insertField w off mask 0#7 := by
  apply BitVec.eq_of_getLsbD_eq; intro i hi
  rw [clearFieldBits_getLsbD, insertField_getLsbD]
  cases (fieldBits off mask).getLsbD i <;> simp

/-! ### The instructions -/

/-- Instructions with the same step in every state have the same runs. -/
theorem execTimes_congr {i j : Instr} (h : ∀ s, exec i s = exec j s) (n : Nat) :
    ∀ s, execTimes i n s = execTimes j n s := by
  induction n with
  | zero => exact fun _ => rfl
  | succ n ih => intro s; simp only [execTimes, h s, ih]

theorem exec_set_eq_setfield (r : Reg) (b : BitVec 5) (s : State) :
    exec (.set r b) s = exec (.setfield r b 1#7 1#7) s := by
  simp only [exec, execSet, execSetfield, setBit_eq_insertField]

theorem exec_clear_eq_setfield (r : Reg) (b : BitVec 5) (s : State) :
    exec (.clear r b) s = exec (.setfield r b 1#7 0#7) s := by
  simp only [exec, execClear, execSetfield, clearBit_eq_insertField]

theorem exec_clearfield_eq_setfield (r : Reg) (off : BitVec 5) (mask : BitVec 7) (s : State) :
    exec (.clearfield r off mask) s = exec (.setfield r off mask 0#7) s := by
  simp only [exec, execClearfield, execSetfield, clearFieldBits_eq_insertField]

/-- Settles O30: step for step the same, so run for run. -/
theorem setClearAreSetfields : Obligations.SetClearAreSetfields := fun s r b off mask _ =>
  ⟨execTimes_congr (exec_set_eq_setfield r b) 2 s, execTimes_congr (exec_clear_eq_setfield r b) 2 s,
    execTimes_congr (exec_clearfield_eq_setfield r off mask) 2 s⟩

end Sys2Proof.Machine
end

section
/-! PROOF. The micro-operations that read or write once (40_register_primitives.md R80, R86, R87), and the two halves of
the read-modify-writes (R81 to R84). -/

namespace Sys2Proof.Machine

variable {s : State} {r : Reg}

/-- Settles O25: both are the one step their meaning says. -/
theorem getAndReadMicroOperations : Obligations.GetAndReadMicroOperations := fun _ _ => ⟨fun _ _ => rfl, rfl⟩

/-- A WRITE is one bus write of `writeData`; of the model's own fields it may move the counter of free values. -/
theorem exec_write (r : Reg) (s : State) :
    ∃ c, exec (.write r) s =
      .next { memWrite r (writeData r s) s with md := none, mphase := .first, freeCtr := c } := by
  cases r with
  | pll | cdiv => exact ⟨s.freeCtr + 1, rfl⟩
  | vtarg => exact ⟨s.freeCtr, rfl⟩

/-- Settles O28: of VTARG the word is R126's; of PLL and CDIV it is whatever `writeData` drew. -/
theorem writeMicroOperation : Obligations.WriteMicroOperation :=
  fun s => ⟨rfl, fun r _ => ⟨writeData r s, exec_write r s⟩⟩

/-! ### Read-modify-write -/

/-- The instruction is the read-modify-write of `r` that writes `f` of the value read (40 R89). -/
def IsRmw (i : Instr) (r : Reg) (f : Word → Word) : Prop := ∀ s, exec i s = .next (rmwStep r f s)

theorem isRmw_set (r : Reg) (b : BitVec 5) : IsRmw (.set r b) r (setBit · b) := fun _ => rfl

theorem isRmw_clear (r : Reg) (b : BitVec 5) : IsRmw (.clear r b) r (clearBit · b) := fun _ => rfl

theorem isRmw_setfield (r : Reg) (off : BitVec 5) (mask val : BitVec 7) :
    IsRmw (.setfield r off mask val) r (insertField · off mask val) := fun _ => rfl

theorem isRmw_clearfield (r : Reg) (off : BitVec 5) (mask : BitVec 7) :
    IsRmw (.clearfield r off mask) r (clearFieldBits · off mask) := fun _ => rfl

/-- What a read-modify-write leaves between its two steps. -/
def rmwBetween (r : Reg) (s : State) : State := { readToTmp r s with mphase := .second }

theorem rmwStep_first (f : Word → Word) (h : s.mphase = .first) : rmwStep r f s = rmwBetween r s := by
  simp only [rmwStep, h, rmwBetween]

/-- The second half writes from TMP. -/
theorem rmwStep_second (f : Word → Word) (h : s.mphase = .second) :
    rmwStep r f s = finishMop (memWrite r (f s.tmp) s) := by
  simp only [rmwStep, h]

/-- Right after the first half, TMP is the value read. -/
theorem rmwStep_rmwBetween (r : Reg) (f : Word → Word) (s : State) :
    rmwStep r f (rmwBetween r s) = finishMop (memWrite r (f (busValue r s)) (rmwBetween r s)) :=
  rmwStep_second f rfl

/-- The whole run of a read-modify-write: a read, then one write of the modified value. -/
theorem IsRmw.run {i : Instr} {f : Word → Word} (hi : IsRmw i r f) (h : s.mphase = .first) :
    execTimes i 2 s = .next (finishMop (memWrite r (f (busValue r s)) (rmwBetween r s))) := by
  rw [execTimes_succ 1 (hi s), rmwStep_first f h, execTimes_succ 0 (hi _), rmwStep_rmwBetween, execTimes_zero]

/-- Settles O26: each of the four is a read-modify-write with the function its rule gives. -/
theorem readModifyWriteMicroOperations : Obligations.ReadModifyWriteMicroOperations := by
  intro s r i f hs hif
  have hi : IsRmw i r f := by
    rcases hif with ⟨b, rfl, rfl⟩ | ⟨b, rfl, rfl⟩ | ⟨off, mask, val, rfl, rfl⟩ | ⟨off, mask, rfl, rfl⟩
    · exact isRmw_set r b
    · exact isRmw_clear r b
    · exact isRmw_setfield r off mask val
    · exact isRmw_clearfield r off mask
  exact ⟨rmwBetween r s, by rw [hi, rmwStep_first f hs], rfl, by rw [hi, rmwStep_rmwBetween]; rfl⟩

end Sys2Proof.Machine
end

section
/-! PROOF. The micro-operations that take many steps: WAITUNTIL polls (40 R85), DELAY counts (40 R88). -/

namespace Sys2Proof.Machine

variable {s : State} {r : Reg} {off : BitVec 5} {mask val : BitVec 7}

/-! ### WAITUNTIL -/

/-- A bus read changes no register. -/
@[simp] theorem busValue_afterRead (r r' : Reg) (s : State) : busValue r (afterRead r' s) = busValue r s := by
  cases r <;> rfl

theorem exec_waituntil_of_holds (h : field (busValue r s) off mask = val &&& mask) :
    exec (.waituntil r off mask val) s = .next (finishMop (afterRead r s)) :=
  congrArg Host.Outcome.next (if_pos (decide_eq_true h))

theorem exec_waituntil_of_fails (h : field (busValue r s) off mask ≠ val &&& mask) :
    exec (.waituntil r off mask val) s = .next (afterRead r s) :=
  congrArg Host.Outcome.next (if_neg (by simpa [pollHolds] using h))

/-- While no agent changes the register, an unsatisfied poll repeats the same read. -/
theorem waituntil_run_of_fails (n : Nat) (h : field (busValue r s) off mask ≠ val &&& mask) :
    execTimes (.waituntil r off mask val) n s =
      .next { s with bus := s.bus ++ List.replicate n (.rd (addrOf s.cfg r) (busValue r s)) } := by
  induction n generalizing s with
  | zero => rw [execTimes_zero, List.replicate_zero, List.append_nil]
  | succ n ih =>
    rw [execTimes_succ n (exec_waituntil_of_fails h), ih (by rwa [busValue_afterRead])]
    simp only [busValue_afterRead, afterRead_bus, afterRead_cfg, List.append_assoc, List.singleton_append,
      ← List.replicate_succ]
    rfl

/-- Settles O27: the poll's two answers, the second by induction on the number of steps. -/
theorem waituntilPollsUntilFieldHolds : Obligations.WaituntilPollsUntilFieldHolds :=
  fun _ _ _ _ _ => ⟨exec_waituntil_of_holds, fun h n => waituntil_run_of_fails n h⟩

/-! ### DELAY -/

/-- The first step loads DLY. -/
theorem exec_delay_first (h : s.mphase = .first) :
    exec .delay s = .next { s with dly := s.cfg.settleTicks, mphase := .second } := by
  simp only [exec, execDelay, h]

theorem exec_delay_countDown (h : s.mphase = .second) (hd : s.dly ≠ 0#32) : exec .delay s = .next (countDown s) := by
  simp only [exec, execDelay, h, if_neg hd]

/-- The step that finds DLY at 0 ends it. -/
theorem exec_delay_end (h : s.mphase = .second) (hd : s.dly = 0#32) : exec .delay s = .next (finishMop s) := by
  simp only [exec, execDelay, h, if_pos hd]

/-- Once loaded, `n` steps are `n` decrements, as long as DLY lasts. -/
theorem delay_run (n : Nat) (h : s.mphase = .second) (hn : n ≤ s.dly.toNat) :
    execTimes .delay n s = .next { s with dly := s.dly - BitVec.ofNat 32 n } := by
  induction n generalizing s with
  | zero => simp
  | succ n ih =>
    have hd : s.dly ≠ 0#32 := by intro e; simp [e] at hn
    have hdec : (s.dly - 1#32).toNat = s.dly.toNat - 1 := by bv_omega
    rw [execTimes_succ n (exec_delay_countDown h hd), ih (s := countDown s) h (by rw [countDown, hdec]; omega)]
    have hsub : s.dly - 1#32 - BitVec.ofNat 32 n = s.dly - BitVec.ofNat 32 (n + 1) := by bv_omega
    simp only [countDown, hsub]

/-- Settles O29: a load, the decrements, and the step that finds 0. -/
theorem delayCountsSettleTicks : Obligations.DelayCountsSettleTicks := by
  intro s hs
  have hcount : ∀ n, n ≤ s.cfg.settleTicks.toNat → execTimes .delay (n + 1) s =
      .next { s with dly := s.cfg.settleTicks - BitVec.ofNat 32 n, mphase := .second } := fun n hn => by
    rw [execTimes_succ n (exec_delay_first hs), delay_run n rfl hn]
  refine ⟨hcount, ?_⟩
  rw [execTimes_add 1 (hcount _ le_rfl), execTimes_succ 0 (exec_delay_end rfl (by simp))]
  simp [finishMop]

end Sys2Proof.Machine
end

section
/-! PROOF. A whole SETFIELD (40 R83, R90): what the bus shows of a register after a write of it, bit by bit. -/

namespace Sys2Proof.Machine

variable {s : State} {r : Reg}

/-- A PLL read shows the stored bits, but for bit LOCK (45 R171). -/
theorem busValue_pll_getLsbD {j : Nat} (hj : j ≠ s.cfg.lockBit.toNat) :
    (busValue .pll s).getLsbD j = s.pll.getLsbD j := by
  unfold busValue pllStored
  cases s.pllLock <;> simp [setBit_getLsbD, clearBit_getLsbD, hj]

/-- A register reads back the word written to it, but for bit LOCK of PLL (20_memory.md R51). -/
theorem busValue_memWrite_same_getLsbD (w : Word) {j : Nat} (hj : r = .pll → j ≠ s.cfg.lockBit.toNat) :
    (busValue r (memWrite r w s)).getLsbD j = w.getLsbD j := by
  cases r with
  | pll =>
    rw [busValue_pll_getLsbD (by simpa using hj rfl), memWrite_pll_pll, pllStored, clearBit_getLsbD]
    simp [hj rfl]
  | cdiv | vtarg => rfl

/-- Between its two steps a read-modify-write has changed no register. -/
theorem busValue_rmwBetween (r r' : Reg) (s : State) : busValue r (rmwBetween r' s) = busValue r s := by
  cases r <;> rfl

/-- Settles O31: after the run the register reads as the word written, bit LOCK aside, and that word is the value read
with the field inserted. -/
theorem setfieldReadsBackAndKeepsOtherBits : Obligations.SetfieldReadsBackAndKeepsOtherBits := by
  intro s t r off mask val hs hfits hlock hrun
  rw [(isRmw_setfield r off mask val).run hs] at hrun
  cases hrun
  have hbit : ∀ j, (r = .pll → j ≠ s.cfg.lockBit.toNat) →
      (busValue r (memWrite r (insertField (busValue r s) off mask val) (rmwBetween r s))).getLsbD j =
        (insertField (busValue r s) off mask val).getLsbD j :=
    fun j hj => busValue_memWrite_same_getLsbD (s := rmwBetween r s) _ hj
  simp only [busValue_finishMop]
  refine ⟨?_, fun j hout hj => ?_, fun r' hr' => ?_⟩
  · have hfield := field_congr (off := off) (mask := mask) fun j hin =>
      hbit j fun hr hj => by simp [hj, hlock hr] at hin
    exact hfield.trans (field_insertField_same _ off mask val hfits)
  · rw [hbit j hj, insertField_getLsbD, hout]; simp
  · rw [busValue_memWrite_other hr', busValue_rmwBetween]

end Sys2Proof.Machine
end

section
/-! PROOF. The sequencer's read/write state pairs are micro-operations (44 R148 to R153, R156 to R159): both read the
register into TMP and write the same function of TMP. -/

namespace Sys2Proof.Machine

variable {s t u : State} {r : Reg}

/-- Two states that no register access tells apart: the registers, the lock, TMP and the bus trace. -/
def SameAccess (t u : State) : Prop :=
  t.bus = u.bus ∧ t.pll = u.pll ∧ t.pllLock = u.pllLock ∧ t.cdiv = u.cdiv ∧ t.vtarg = u.vtarg ∧ t.tmp = u.tmp

/-- The read half of a state pair, on its way to the write half `y`. -/
def pairBetween (r : Reg) (y : SeqState) (s : State) : State := { readToTmp r s with st := y }

/-- A state pair and a read-modify-write agree when they read one register and write one word. -/
theorem sameAccess_of_pair {i : Instr} {f : Word → Word} {x y : SeqState} {w : State} {hz : Word} (hi : IsRmw i r f)
    (hm : s.mphase = .first) (hst : s.st = x) (hbusy : x ≠ .sIdle ∧ y ≠ .sIdle)
    (hread : ruleOf s = .next (pairBetween r y s)) (hwrite : ruleOf (pairBetween r y s) = .next w)
    (hw : SameAccess w (memWrite r (f (busValue r s)) (rmwBetween r s)))
    (ht : execTimes (.setfreq hz) 2 s = .next t) (hu : execTimes i 2 s = .next u) : SameAccess t u := by
  rw [execTimes_rule 1 rfl (hst ▸ hbusy.1) hread, execTimes_rule 0 rfl hbusy.2 hwrite] at ht
  rw [hi.run hm] at hu
  cases ht
  cases hu
  exact hw

/-- Clearing the poll count is no register access. -/
theorem sameAccess_startPolls (s : State) : SameAccess (startPolls s) s := by
  unfold startPolls
  split <;> exact ⟨rfl, rfl, rfl, rfl, rfl, rfl⟩

/-- Settles O32: pair by pair, the two rules against the micro-operation. -/
theorem statePairsAreMicroOperations : Obligations.StatePairsAreMicroOperations := by
  intro hz x i s t u hxi hst hm ht hu
  rcases hxi with ⟨rfl, rfl⟩ | ⟨rfl, rfl⟩ | ⟨rfl, rfl⟩ | ⟨rfl, rfl⟩ | ⟨rfl, rfl⟩
  · exact sameAccess_of_pair (isRmw_setfield _ _ _ _) hm hst (by decide) (ruleOf_sBypsrcRd hst) (ruleOf_sBypsrcWr rfl)
      ⟨rfl, rfl, rfl, rfl, rfl, rfl⟩ ht hu
  · exact sameAccess_of_pair (isRmw_set _ _) hm hst (by decide) (ruleOf_sBypsetRd hst) (ruleOf_sBypsetWr rfl)
      ⟨rfl, rfl, rfl, rfl, rfl, rfl⟩ ht hu
  · exact sameAccess_of_pair (isRmw_setfield _ _ _ _) hm hst (by decide) (ruleOf_sDivselRd hst) (ruleOf_sDivselWr rfl)
      (sameAccess_startPolls _) ht hu
  · exact sameAccess_of_pair (isRmw_clear _ _) hm hst (by decide) (ruleOf_sUnbypRd hst) (ruleOf_sUnbypWr rfl)
      ⟨rfl, rfl, rfl, rfl, rfl, rfl⟩ ht hu
  · exact sameAccess_of_pair (isRmw_setfield _ _ _ _) hm hst (by decide) (ruleOf_sPodfRd hst) (ruleOf_sPodfWr rfl)
      ⟨rfl, rfl, rfl, rfl, rfl, rfl⟩ ht hu

end Sys2Proof.Machine
end

section
/-! PROOF. The frame of the micro-operations (40_register_primitives.md R89): a step is one read, one write or a step of
the delay count, and each clause of the frame follows from that. -/

namespace Sys2Proof.Machine

variable {i : Instr} {s t : State}

/-- The micro-operations that change no register (40 R80, R85, R86, R88). -/
def OnlyReads (i : Instr) : Prop :=
  (∃ r o m, i = .get r o m) ∨ (∃ r o m v, i = .waituntil r o m v) ∨ (∃ r, i = .read r) ∨ i = .delay

/-- The micro-operations that do not use TMP as a destination (40 R80, R85, R87, R88). -/
def LeavesTmp (i : Instr) : Prop :=
  (∃ r o m, i = .get r o m) ∨ (∃ r o m v, i = .waituntil r o m v) ∨ (∃ r, i = .write r) ∨ i = .delay

/-- What a step of a micro-operation can be: one read of its register operand, one write of it, or a step of the delay
count; beside that it moves only the model's own fields. -/
inductive MopStep (i : Instr) (s t : State) : Prop where
  | read (r : Reg) (tmp : Word) (md : Option (BitVec 25)) (ph : MopPhase) (res : BitVec 7)
      (target : targetOf i = some r) (keepsTmp : LeavesTmp i → tmp = s.tmp)
      (eq : t = { afterRead r s with tmp := tmp, md := md, mphase := ph, mopResult := res })
  | write (r : Reg) (w : Word) (c : Nat) (target : targetOf i = some r) (writes : ¬ OnlyReads i)
      (eq : t = { memWrite r w s with md := none, mphase := .first, freeCtr := c })
  | count (dly : Word) (md : Option (BitVec 25)) (ph : MopPhase) (delay : i = .delay)
      (eq : t = { s with dly := dly, md := md, mphase := ph })

theorem mopStep_of_isRmw {r : Reg} {f : Word → Word} (hi : IsRmw i r f) (target : targetOf i = some r)
    (writes : ¬ OnlyReads i) (usesTmp : ¬ LeavesTmp i) : ∃ t, exec i s = .next t ∧ MopStep i s t := by
  refine ⟨_, hi s, ?_⟩
  rcases hm : s.mphase
  case first =>
    rw [rmwStep_first f hm]
    exact .read r _ _ _ _ target (fun h => absurd h usesTmp) rfl
  case second =>
    rw [rmwStep_second f hm]
    exact .write r _ _ target writes rfl

/-- Every micro-operation completes such a step. -/
theorem exec_mopStep (hi : isCommand i = false) (s : State) : ∃ t, exec i s = .next t ∧ MopStep i s t := by
  cases i with
  | setfreq | rdfreq | setop | lookup => cases hi
  | get r off mask => exact ⟨_, rfl, .read r _ _ _ _ rfl (fun _ => rfl) rfl⟩
  | read r => exact ⟨_, rfl, .read r _ _ _ _ rfl (by simp [LeavesTmp]) rfl⟩
  | waituntil r off mask val =>
    by_cases h : field (busValue r s) off mask = val &&& mask
    · exact ⟨_, exec_waituntil_of_holds h, .read r _ _ _ _ rfl (fun _ => rfl) rfl⟩
    · exact ⟨_, exec_waituntil_of_fails h, .read r _ _ _ _ rfl (fun _ => rfl) rfl⟩
  | set r b => exact mopStep_of_isRmw (isRmw_set r b) rfl (by simp [OnlyReads]) (by simp [LeavesTmp])
  | clear r b => exact mopStep_of_isRmw (isRmw_clear r b) rfl (by simp [OnlyReads]) (by simp [LeavesTmp])
  | setfield r off mask val =>
    exact mopStep_of_isRmw (isRmw_setfield r off mask val) rfl (by simp [OnlyReads]) (by simp [LeavesTmp])
  | clearfield r off mask =>
    exact mopStep_of_isRmw (isRmw_clearfield r off mask) rfl (by simp [OnlyReads]) (by simp [LeavesTmp])
  | write r =>
    obtain ⟨c, hc⟩ := exec_write r s
    exact ⟨_, hc, .write r _ c rfl (by simp [OnlyReads]) rfl⟩
  | delay =>
    rcases hm : s.mphase
    case first => exact ⟨_, exec_delay_first hm, .count _ _ _ rfl rfl⟩
    case second =>
      by_cases hd : s.dly = 0#32
      · exact ⟨_, exec_delay_end hm hd, .count _ _ _ rfl rfl⟩
      · exact ⟨_, exec_delay_countDown hm hd, .count _ _ _ rfl rfl⟩

/-- The sequencer's latches other than TMP and DLY, its ports, its parameters and the other two traces are kept. -/
theorem MopStep.keeps_sequencer (h : MopStep i s t) :
    t.st = s.st ∧ t.cmd = s.cmd ∧ t.arg = s.arg ∧ t.opDiv = s.opDiv ∧ t.opPodf = s.opPodf ∧ t.opUv = s.opUv ∧
      t.rdDiv = s.rdDiv ∧ t.rdPodf = s.rdPodf ∧ t.curHz = s.curHz ∧ t.inc = s.inc ∧ t.vphase = s.vphase ∧
      t.vUv = s.vUv ∧ t.vCore = s.vCore ∧ t.vOld = s.vOld ∧ t.vSoc = s.vSoc ∧ t.polls = s.polls ∧
      t.status = s.status ∧ t.rdata = s.rdata ∧ t.family = s.family ∧ t.cfg = s.cfg ∧ t.port = s.port ∧
      t.sched = s.sched ∧ t.rsp = s.rsp ∧ t.rspOut = s.rspOut ∧ t.diag = s.diag := by
  cases h with
  | read _ _ _ _ _ _ _ eq | write _ _ _ _ _ eq | count _ _ _ _ eq => subst eq; simp

theorem MopStep.bus_cases (h : MopStep i s t) : t.bus = s.bus ∨ ∃ e, t.bus = s.bus ++ [e] := by
  cases h with
  | read _ _ _ _ _ _ _ eq => subst eq; exact .inr ⟨_, rfl⟩
  | write _ _ _ _ _ eq => subst eq; exact .inr ⟨_, rfl⟩
  | count _ _ _ _ eq => subst eq; exact .inl rfl

theorem MopStep.keeps_registers (h : MopStep i s t) (hi : OnlyReads i) :
    t.pll = s.pll ∧ t.pllLock = s.pllLock ∧ t.cdiv = s.cdiv ∧ t.vtarg = s.vtarg ∧ t.railSettled = s.railSettled ∧
      writesOf t.bus = writesOf s.bus := by
  cases h with
  | read _ _ _ _ _ _ _ eq => subst eq; simp [writesOf]
  | write _ _ _ _ writes => exact absurd hi writes
  | count _ _ _ _ eq => subst eq; simp

/-- A register other than the operand reads as before (R89 (c)). -/
theorem MopStep.busValue_other (h : MopStep i s t) {r' : Reg} (hr : targetOf i ≠ some r') :
    busValue r' t = busValue r' s := by
  cases h with
  | read _ _ _ _ _ _ _ eq => subst eq; cases r' <;> rfl
  | write r w _ target _ eq =>
    have hne : r' ≠ r := fun e => hr (e ▸ target)
    calc busValue r' t = busValue r' (memWrite r w s) := by subst eq; cases r' <;> rfl
      _ = busValue r' s := busValue_memWrite_other hne w s
  | count _ _ _ _ eq => subst eq; cases r' <;> rfl

/-- A register other than the operand stores what it did, its hidden bit with it. -/
theorem MopStep.stores_other (h : MopStep i s t) :
    (targetOf i ≠ some .pll → t.pll = s.pll ∧ t.pllLock = s.pllLock) ∧
      (targetOf i ≠ some .cdiv → t.cdiv = s.cdiv) ∧
      (targetOf i ≠ some .vtarg → t.vtarg = s.vtarg ∧ t.railSettled = s.railSettled) := by
  cases h with
  | read _ _ _ _ _ _ _ eq => subst eq; simp
  | write r _ _ target _ eq => subst eq; rw [target]; cases r <;> simp
  | count _ _ _ _ eq => subst eq; simp

theorem MopStep.keeps_dly (h : MopStep i s t) (hi : i ≠ .delay) : t.dly = s.dly := by
  cases h with
  | read _ _ _ _ _ _ _ eq => subst eq; rfl
  | write _ _ _ _ _ eq => subst eq; simp
  | count _ _ _ delay => exact absurd delay hi

theorem MopStep.keeps_tmp (h : MopStep i s t) (hi : LeavesTmp i) : t.tmp = s.tmp := by
  cases h with
  | read _ _ _ _ _ _ keepsTmp eq => subst eq; exact keepsTmp hi
  | write _ _ _ _ _ eq => subst eq; simp
  | count _ _ _ _ eq => subst eq; rfl

/-- Settles O33: every clause from what such a step can be. -/
theorem microOperationFrame : Obligations.MicroOperationFrame := by
  intro i s hi
  obtain ⟨t, ht, h⟩ := exec_mopStep hi s
  obtain ⟨st, cmd, arg, opDiv, opPodf, opUv, rdDiv, rdPodf, curHz, inc, vphase, vUv, vCore, vOld, vSoc, polls, status,
    rdata, family, cfg, port, sched, rsp, rspOut, diag⟩ := h.keeps_sequencer
  obtain ⟨pll, cdiv, vtarg⟩ := h.stores_other
  exact ⟨t, ht, st, cmd, arg, opDiv, opPodf, opUv, rdDiv, rdPodf, curHz, inc, vphase, vUv, vCore, vOld, vSoc, polls,
    status, rdata, family, cfg, port, sched, rsp, rspOut, diag, h.bus_cases, h.keeps_registers,
    fun _ => h.busValue_other, pll, cdiv, vtarg, h.keeps_dly, h.keeps_tmp⟩

end Sys2Proof.Machine
end

section
/-! PROOF. The parameters, the table among them, and the strap are constants of a run (10_state.md R15, R23; 41 R104):
no turn of the sequencer changes them, and neither does another agent's move. -/

namespace Sys2Proof.Machine

variable {s t : State}

/-- A turn of the sequencer keeps the parameters and the strap: both frames say so. -/
theorem TurnCase.keeps_cfg_family (h : TurnCase s t) : t.cfg = s.cfg ∧ t.family = s.family := by
  cases h with
  | wait _ _ _ e => subst e; exact ⟨rfl, rfl⟩
  | take _ _ _ _ _ e => subst e; exact ⟨rfl, rfl⟩
  | start _ _ _ _ _ _ frame => exact ⟨frame.cfg, frame.family⟩
  | goOn _ _ _ frame => exact ⟨frame.cfg, frame.family⟩
  | rule _ run => exact ⟨(ruleFrame_ruleOf run).cfg, (ruleFrame_ruleOf run).family⟩

/-- Settles O47: by who moves; only the sequencer's turn needs its frame, and every other move is a named update
of other fields. -/
theorem tableAndStrapAreImmutable : Obligations.TableAndStrapAreImmutable := by
  intro s t h
  cases step_cases h with
  | sequencer _ turn => exact turn.keeps_cfg_family
  | present _ _ _ e => subst e; exact ⟨rfl, rfl⟩
  | consume _ _ e => subst e; exact ⟨rfl, rfl⟩
  | lock _ _ e => subst e; exact ⟨rfl, rfl⟩
  | drop _ _ e => subst e; exact ⟨rfl, rfl⟩
  | settle _ _ e => subst e; exact ⟨rfl, rfl⟩
  | reset _ _ _ _ e => subst e; exact ⟨rfl, rfl⟩

end Sys2Proof.Machine
end

section
/-! PROOF. LOOKUP as a whole (41 R100): acceptance, S_ENTRY, S_LOOKUP unless the family is not implemented, then
S_RESPOND. -/

namespace Sys2Proof.Machine

variable {s : State} {hz : Word}

/-! ### The table (41 R102, R103) -/

/-- Keys are unique, so a row of the table is what `Lookup` finds under its key. -/
theorem lookupRow_of_mem {c : Params} (wf : c.WF) {r : Row} (hr : r ∈ c.table) : lookupRow c r.key = some r := by
  have hnodup : (c.table.map Row.key).Nodup := List.pairwise_map.2 wf.rowKeysApart
  obtain ⟨found, hfound⟩ : ∃ found, lookupRow c r.key = some found :=
    Option.isSome_iff_exists.1 (List.find?_isSome.2 ⟨r, hr, by simp⟩)
  obtain ⟨hmem, hkey⟩ := lookupRow_some hfound
  rw [hfound, List.inj_on_of_nodup_map hnodup hmem hr hkey]

theorem lookupRow_eq_none {c : Params} (h : ∀ r ∈ c.table, r.key ≠ hz) : lookupRow c hz = none :=
  List.find?_eq_none.2 (by simpa using h)

/-- The three parts of a packed row do not overlap when the voltage is below 2^21 (30_encoding.md R68). -/
theorem packRow_toNat {r : Row} (huv : r.uv.toNat < 2 ^ 21) :
    (packRow r).toNat = r.uv.toNat + r.div.toNat * 2 ^ 21 + r.podf.toNat * 2 ^ 28 := by
  have hdiv := r.div.isLt
  have hpodf := r.podf.isLt
  have hd : (r.div.setWidth 32 <<< 21).toNat = 2 ^ 21 * r.div.toNat := by
    simp [BitVec.toNat_shiftLeft, Nat.shiftLeft_eq]; omega
  have hp : (r.podf.setWidth 32 <<< 28).toNat = 2 ^ 28 * r.podf.toNat := by
    simp [BitVec.toNat_shiftLeft, Nat.shiftLeft_eq]; omega
  rw [packRow, BitVec.toNat_or, BitVec.toNat_or, hd, hp, Nat.lor_comm r.uv.toNat,
    ← Nat.two_pow_add_eq_or_of_lt huv, Nat.lor_comm, ← Nat.two_pow_add_eq_or_of_lt (by omega)]
  ring

/-! ### The steps (44 R141 to R143, R161) -/

/-- S_ENTRY sends the two commands that consult the table to S_LOOKUP when the family is implemented. -/
theorem ruleEntry_of_tableCommand (hc : s.cmd = opSetfreq ∨ s.cmd = opLookup) (hf : s.family = s.cfg.fam0) :
    ruleEntry s = { s with st := .sLookup } := by
  rw [ruleEntry, if_pos hc, if_pos (show familyImplemented s = true from decide_eq_true hf)]

/-- S_ENTRY answers them with UnsupportedFamily when it is not. -/
theorem ruleEntry_of_tableCommand_unsupported (hc : s.cmd = opSetfreq ∨ s.cmd = opLookup)
    (hf : s.family ≠ s.cfg.fam0) : ruleEntry s = raise .unsupportedFamily s := by
  rw [ruleEntry, if_pos hc, if_neg (show ¬ familyImplemented s = true from fun h => hf (of_decide_eq_true h))]

theorem ruleLookup_of_some {r : Row} (hf : s.family = s.cfg.fam0) (h : lookupRow s.cfg s.arg = some r) :
    ruleLookup s = .next (lookupFound r s) := by
  rw [ruleLookup, if_pos (show familyImplemented s = true from decide_eq_true hf), h]

theorem ruleLookup_of_none (hf : s.family = s.cfg.fam0) (h : lookupRow s.cfg s.arg = none) :
    ruleLookup s = .next (raise .unsupportedFrequency s) := by
  rw [ruleLookup, if_pos (show familyImplemented s = true from decide_eq_true hf), h]

/-- A command whose work is done is answered by its next step. -/
theorem execTimes_respond {i : Instr} (hi : isCommand i = true) (hst : s.st = .sRespond) :
    execTimes i 1 s = .next (respond s) :=
  execTimes_rule 0 hi (by rw [hst]; decide) (ruleOf_sRespond hst)

/-! ### The command -/

/-- The first two steps of LOOKUP: acceptance and S_ENTRY. -/
theorem lookup_run_entered (hst : s.st = .sIdle) (n : Nat) :
    execTimes (.lookup hz) (n + 2) s = execTimes (.lookup hz) n (ruleEntry (accept opLookup hz s)) := by
  rw [execTimes_succ (n + 1) ((exec_lookup hz s).trans (commandStep_idle hst opLookup hz)),
    execTimes_rule n rfl (by simp) (ruleOf_sEntry rfl)]

/-- With an implemented family, LOOKUP goes through S_LOOKUP and is answered in the step after it. -/
theorem lookup_run (hst : s.st = .sIdle) (hf : s.family = s.cfg.fam0) {u : State}
    (hlookup : ruleLookup { accept opLookup hz s with st := .sLookup } = .next u) (hu : u.st = .sRespond) :
    execTimes (.lookup hz) 4 s = .next (respond u) := by
  rw [lookup_run_entered hst 2, ruleEntry_of_tableCommand (s := accept opLookup hz s) (.inr rfl) hf,
    execTimes_rule 1 rfl (by simp) ((ruleOf_sLookup rfl).trans hlookup), execTimes_respond rfl hu]

/-- The answer to a command that raised an error before any latch but CMD, ARG and RDATA changed. -/
theorem respond_raise_accept (hst : s.st = .sIdle) (hcmd : s.cmd = 0#4) (e : Status) (op : BitVec 4) :
    respond (raise e (accept op hz s)) = { s with
      arg := hz, rdata := 0#32, status := e
      rsp := s.rsp ++ [⟨e, 0#32⟩], rspOut := s.rspOut ++ [⟨e, 0#32⟩] } := by
  simp [respond, raise, accept, hst, hcmd]

/-- The answer to a LOOKUP that found its row. -/
theorem respond_lookupFound (hst : s.st = .sIdle) (hcmd : s.cmd = 0#4) (r : Row) :
    respond (lookupFound r { accept opLookup hz s with st := .sLookup }) = { s with
      arg := hz, opDiv := r.div, opPodf := r.podf, opUv := r.uv, rdata := packRow r, status := .ok
      rsp := s.rsp ++ [⟨.ok, packRow r⟩], rspOut := s.rspOut ++ [⟨.ok, packRow r⟩] } := by
  simp [lookupFound, latchRow, succeed, respond, accept, hst, hcmd]

/-- Settles O16: path by path; whatever S_LOOKUP finds is answered by S_RESPOND, and S_ENTRY alone raises
UnsupportedFamily. -/
theorem lookupCommandAnswersPackedRow : Obligations.LookupCommandAnswersPackedRow := by
  intro s hz hst hcmd wf
  refine ⟨fun hf r hr hkey => ?found, fun hf hmiss => ?missed, fun hf => ?unsupported⟩
  case found =>
    subst hkey
    refine ⟨packRow r, packRow_toNat (wf.rowUvSmall r hr), ?_⟩
    rw [lookup_run hst hf (ruleLookup_of_some hf (lookupRow_of_mem wf hr)) rfl, respond_lookupFound hst hcmd]
  case missed =>
    rw [lookup_run hst hf (ruleLookup_of_none hf (lookupRow_eq_none hmiss)) rfl]
    exact congrArg Host.Outcome.next (respond_raise_accept hst hcmd .unsupportedFrequency opLookup)
  case unsupported =>
    rw [lookup_run_entered hst 1, ruleEntry_of_tableCommand_unsupported (s := accept opLookup hz s) (.inr rfl) hf,
      execTimes_respond rfl rfl, respond_raise_accept hst hcmd]

end Sys2Proof.Machine
end

section
/-! PROOF. RDFREQ as a whole (42 R110): acceptance, S_ENTRY, the reader's two reads S_RD_DIV and S_RD_PODF, S_RESPOND;
and the value of the reader's frequency (42 R112). -/

namespace Sys2Proof.Machine

variable {s : State} {x : Word}

/-! ### The frequency of the two fields (42 R112) -/

theorem field_toNat_le (w : Word) (off : BitVec 5) (mask : BitVec 7) : (field w off mask).toNat ≤ mask.toNat := by
  rw [field, BitVec.toNat_and]; exact Nat.and_le_right

/-- Latch RD_PODF is wide enough for the field (10_state.md R12). -/
theorem podfOf_toNat {c : Params} (wf : c.WF) (w : Word) :
    (podfOf c w).toNat = (field w c.podfOff c.podfMask).toNat := by
  have hmask : c.podfMask.toNat ≤ 7 := by
    rw [← wf.podfNarrow, BitVec.toNat_and]; exact Nat.and_le_right
  have hfield := field_toNat_le w c.podfOff c.podfMask
  rw [podfOf, BitVec.toNat_setWidth, Nat.mod_eq_of_lt (by omega)]

/-- The frequency function on natural numbers, where it does not overflow. -/
theorem freq_toNat {d : BitVec 7} (p : BitVec 3) (h : Config.oscHz * d.toNat < 2 ^ 32) :
    (freq d p).toNat = Config.oscHz * d.toNat / 2 / (p.toNat + 1) := by
  rw [freq, BitVec.toNat_ofNat, Nat.mod_eq_of_lt]
  exact ((Nat.div_le_self _ _).trans (Nat.div_le_self _ _)).trans_lt h

/-- No content of DIV_SELECT overflows the frequency (00_scope.md R7 (d)). -/
theorem oscHz_mul_divOf_lt {c : Params} (wf : c.WF) (w : Word) : Config.oscHz * (divOf c w).toNat < 2 ^ 32 :=
  (Nat.mul_le_mul_left _ (field_toNat_le w c.divOff c.divMask)).trans_lt wf.noOverflow

theorem fieldsHz_toNat (wf : s.cfg.WF) :
    (fieldsHz s).toNat = 24000000 * (field s.pll s.cfg.divOff s.cfg.divMask).toNat / 2 /
      ((field s.cdiv s.cfg.podfOff s.cfg.podfMask).toNat + 1) := by
  rw [fieldsHz, freq_toNat _ (oscHz_mul_divOf_lt wf s.pll), podfOf_toNat wf, divOf, Config.oscHz]

/-! ### The steps (44 R142, R144, R145) -/

theorem busValue_cdiv (s : State) : busValue .cdiv s = s.cdiv := rfl

/-- S_ENTRY sends RDFREQ to the reader, whatever the family. -/
theorem ruleEntry_of_rdfreq (hc : s.cmd = opRdfreq) : ruleEntry s = { s with st := .sRdDiv } := by
  rw [ruleEntry, if_neg (by rw [hc]; decide), if_neg (by rw [hc]; decide), if_pos hc]

/-- S_RD_DIV latches the register's own divider field: bit LOCK, which the read adds, is no part of it. -/
theorem ruleRdDiv_eq (wf : s.cfg.WF) :
    ruleRdDiv s = { afterRead .pll s with rdDiv := divOf s.cfg s.pll, st := .sRdPodf } := by
  rw [ruleRdDiv, divOf_busValue wf]

/-- S_RD_PODF ends RDFREQ with the frequency as its answer. -/
theorem ruleRdPodf_of_rdfreq (hc : s.cmd = opRdfreq) (hd : s.rdDiv = divOf s.cfg s.pll) :
    ruleRdPodf s = succeed { afterRead .cdiv s with
      rdPodf := podfOf s.cfg s.cdiv, curHz := fieldsHz s, rdata := fieldsHz s } := by
  rw [ruleRdPodf, if_pos hc, readPodf_curHz hd, readPodf, hd]; rfl

/-! ### The command -/

/-- The five steps of RDFREQ, rule by rule. -/
theorem rdfreq_run (hst : s.st = .sIdle) (wf : s.cfg.WF) :
    execTimes (.rdfreq x) 5 s =
      .next (respond (ruleRdPodf (ruleRdDiv { accept opRdfreq x s with st := .sRdDiv }))) := by
  rw [execTimes_succ 4 ((exec_rdfreq x s).trans (commandStep_idle hst opRdfreq x)),
    execTimes_rule 3 rfl (by simp) (ruleOf_sEntry rfl), ruleEntry_of_rdfreq rfl,
    execTimes_rule 2 rfl (by simp) (ruleOf_sRdDiv rfl),
    execTimes_rule 1 rfl (by simp [ruleRdDiv]) (ruleOf_sRdPodf rfl),
    execTimes_respond rfl (by rw [ruleRdPodf_of_rdfreq rfl (divOf_busValue wf)]; rfl)]

/-- The reader's answer to an accepted RDFREQ: the two reads in order, the fields latched, their frequency returned. -/
theorem respond_reader (hst : s.st = .sIdle) (hcmd : s.cmd = 0#4) (wf : s.cfg.WF) :
    respond (ruleRdPodf (ruleRdDiv { accept opRdfreq x s with st := .sRdDiv })) = { s with
      arg := x
      bus := s.bus ++ [.rd s.cfg.aPll (busValue .pll s), .rd s.cfg.aCdiv s.cdiv]
      rdDiv := divOf s.cfg s.pll, rdPodf := podfOf s.cfg s.cdiv
      curHz := fieldsHz s, rdata := fieldsHz s, status := .ok
      rsp := s.rsp ++ [⟨.ok, fieldsHz s⟩], rspOut := s.rspOut ++ [⟨.ok, fieldsHz s⟩] } := by
  rw [ruleRdDiv_eq (s := { accept opRdfreq x s with st := .sRdDiv }) wf, ruleRdPodf_of_rdfreq rfl rfl]
  have hpll : busValue .pll { accept opRdfreq x s with st := .sRdDiv } = busValue .pll s := rfl
  simp only [afterRead, hpll]
  simp [accept, succeed, respond, addrOf, busValue_cdiv, fieldsHz, hst, hcmd]

/-- Settles O17: the five rules in turn; the answer is the frequency of the two fields as the registers hold them. -/
theorem rdfreqCommandAnswersFieldFrequency : Obligations.RdfreqCommandAnswersFieldFrequency := by
  intro s x hst hcmd wf
  refine ⟨fieldsHz s, fieldsHz_toNat wf, ?_⟩
  rw [rdfreq_run hst wf, respond_reader hst hcmd wf]
  rfl

end Sys2Proof.Machine
end

section
/-! PROOF. The quantiser (43 R121): its value as a natural number, three branches. -/

namespace Sys2Proof.Machine

/-- The code as a natural number; the linear branch's quotient is at most 30, which five bits hold. -/
theorem quant_toNat (uv : Word) :
    (quant uv).toNat =
      if uv.toNat < 725000 then 0 else if 1450000 < uv.toNat then 31 else (uv.toNat - 700000) / 25000 := by
  rw [quant, Config.uvMin, Config.uvMax, Config.uvBase, Config.uvStep]
  split_ifs with hlow hhigh
  · rfl
  · rfl
  · rw [BitVec.toNat_ofNat, Nat.mod_eq_of_lt (by omega)]

theorem quant_monotone {uv uv' : Word} (h : uv.toNat ≤ uv'.toNat) : (quant uv).toNat ≤ (quant uv').toNat := by
  rw [quant_toNat, quant_toNat]
  split_ifs <;> omega

/-- Settles O40: the branches are those of `quant_toNat`. -/
theorem quantiserBranchesAndMonotone : Obligations.QuantiserBranchesAndMonotone := by
  intro uv
  refine ⟨fun hlow => ?low, fun hhigh => ?high, fun hlo hhi => ?linear, fun _ => quant_monotone⟩
  case low => rw [quant_toNat, if_pos hlow]
  case high => rw [quant_toNat, if_neg (by omega), if_pos hhigh]
  case linear =>
    rw [quant_toNat, if_neg (by omega), if_neg (by omega)]
    omega

end Sys2Proof.Machine
end

section
/-! PROOF. The controller's states (43 R122 to R129), each of its two-way rules read at each case, and a whole call of
the controller up to its diagnostic event, whichever command made it. -/

namespace Sys2Proof.Machine

variable {s : State} {i : Instr}

/-! ### The secondary code (43 R124) -/

theorem socCode_toNat (c : BitVec 5) : (socCode c).toNat = max c.toNat 18 := by
  rw [socCode, Config.socMinCode, BitVec.toNat_ofNat]
  split_ifs <;> simp <;> omega

/-! ### Return to the caller (43 R129) -/

/-- A pre-raise goes on with the PLL. -/
theorem vReturn_of_pre (h : s.vphase = .pre) : vReturn s = .next { s with vphase := .none, st := .sBypsrcRd } := by
  rw [vReturn, h]

/-- A post-lower and a stand-alone SETOP are done. -/
theorem vReturn_of_last (h : s.vphase = .post ∨ s.vphase = .alone) :
    vReturn s = .next (succeed { s with vphase := .none }) := by
  rcases h with h | h <;> rw [vReturn, h]

/-! ### The rules with two cases (43 R123, R124, R127) -/

theorem ruleVRdCur_of_eq (h : vcoreOf s.cfg s.vtarg = s.vCore) :
    ruleVRdCur s = vReturn { afterRead .vtarg s with vOld := s.vCore } := by
  have hm : codeMatches (vcoreOf s.cfg (busValue .vtarg s)) s.vCore = true := decide_eq_true h
  rw [ruleVRdCur, if_pos hm, ← h]; rfl

theorem ruleVRdCur_of_ne (h : vcoreOf s.cfg s.vtarg ≠ s.vCore) :
    ruleVRdCur s = .next { afterRead .vtarg s with
      vOld := vcoreOf s.cfg s.vtarg, vSoc := socCode s.vCore, st := .sVRmwRd } := by
  have hm : ¬ codeMatches (vcoreOf s.cfg (busValue .vtarg s)) s.vCore = true := fun e => h (of_decide_eq_true e)
  rw [ruleVRdCur, if_neg hm]; rfl

theorem ruleVSettle_of_zero (h : s.dly = 0#32) : ruleVSettle s = { s with st := .sVDiag } := if_pos h

theorem ruleVSettle_of_ne (h : s.dly ≠ 0#32) : ruleVSettle s = countDown s := if_neg h

/-! ### State by state -/

/-- A command in flight takes the step of its state's rule. -/
theorem exec_atState {x : SeqState} {o : Host.Outcome State Fault Refusal} (hi : isCommand i = true)
    (hst : s.st = x) (hx : x ≠ .sIdle) (hr : ruleOf s = o) : exec i s = o :=
  (exec_busy hi (hst ▸ hx)).trans hr

/-- Settles O11: the rules of the four states. -/
theorem controllerStatesWriteBothTargets : Obligations.ControllerStatesWriteBothTargets := by
  intro i s hi
  refine ⟨fun hst => ?quantise, fun hst hne => ?compare, fun hst => ?read, fun hst w hw => ?write⟩
  case quantise => exact exec_atState hi hst nofun (ruleOf_sVQuant hst)
  case compare =>
    refine ⟨socCode s.vCore, socCode_toNat _, exec_atState hi hst nofun ?_⟩
    exact (ruleOf_sVRdCur hst).trans (ruleVRdCur_of_ne hne)
  case read => exact exec_atState hi hst nofun (ruleOf_sVRmwRd hst)
  case write => subst hw; exact exec_atState hi hst nofun (ruleOf_sVRmwWr hst)

/-- Settles O12: the two cases of the settle rule, and the return of S_V_DIAG and of the early exit by caller. -/
theorem controllerSettlesReportsAndReturns : Obligations.ControllerSettlesReportsAndReturns := by
  intro i s hi
  refine ⟨fun hst hd => ?count, fun hst hd => ?settled, fun hst dg hdg => ?report, fun hst heq b hb => ?early⟩
  case count => exact exec_atState hi hst nofun ((ruleOf_sVSettle hst).trans (by rw [ruleVSettle_of_ne hd]; rfl))
  case settled => exact exec_atState hi hst nofun ((ruleOf_sVSettle hst).trans (by rw [ruleVSettle_of_zero hd]))
  case report =>
    subst hdg
    exact ⟨fun hp => exec_atState hi hst nofun ((ruleOf_sVDiag hst).trans (vReturn_of_pre (s := emitDiag s) hp)),
      fun hp => exec_atState hi hst nofun ((ruleOf_sVDiag hst).trans (vReturn_of_last (s := emitDiag s) hp))⟩
  case early =>
    subst hb
    have hrule := (ruleOf_sVRdCur hst).trans (ruleVRdCur_of_eq heq)
    exact ⟨fun hp => exec_atState hi hst nofun (hrule.trans (vReturn_of_pre hp)),
      fun hp => exec_atState hi hst nofun (hrule.trans (vReturn_of_last hp))⟩

/-! ### A whole call -/

/-- The word a call writes: the quantised code and the secondary code beside it, in the register as it was (R126). -/
def callWord (s : State) : Word := withTargets s.cfg s.vtarg (quant s.vUv) (socCode (quant s.vUv))

/-- Where a call that had to write stands when the rails' settle delay is over: about to report. -/
def callSettled (s : State) : State :=
  { storeReg .vtarg (callWord s) s with
    st := .sVDiag, vCore := quant s.vUv, vOld := vcoreOf s.cfg s.vtarg, vSoc := socCode (quant s.vUv)
    tmp := s.vtarg, dly := 0#32
    bus := s.bus ++ [.rd s.cfg.aVtarg s.vtarg] ++ [.rd s.cfg.aVtarg s.vtarg] ++ [.wr s.cfg.aVtarg (callWord s)] }

/-- The settle loop as a whole: `DLY` steps that count and the one that finds 0 (R127). -/
theorem settle_run_out (hi : isCommand i = true) (hst : s.st = .sVSettle) :
    execTimes i (s.dly.toNat + 1) s = .next { s with dly := 0#32, st := .sVDiag } := by
  rw [execTimes_add 1 (settle_run hi _ s hst rfl),
    execTimes_rule (s := { s with dly := 0#32 }) 0 hi (by simp [hst]) (ruleOf_sVSettle hst), ruleVSettle_of_zero rfl]
  rfl

/-- A call that finds another core code reads twice, writes once and waits for `SETTLE_TICKS` (R122 to R127). -/
theorem controller_run (hi : isCommand i = true) (hst : s.st = .sVQuant) (hne : vcoreOf s.cfg s.vtarg ≠ quant s.vUv) :
    execTimes i (s.cfg.settleTicks.toNat + 5) s = .next (callSettled s) := by
  rw [execTimes_rule _ hi (by simp [hst]) (ruleOf_sVQuant hst),
    execTimes_rule _ hi (by nofun) ((ruleOf_sVRdCur rfl).trans (ruleVRdCur_of_ne (s := ruleVQuant s) hne)),
    execTimes_rule _ hi (by nofun) (ruleOf_sVRmwRd rfl), execTimes_rule _ hi (by nofun) (ruleOf_sVRmwWr rfl)]
  exact settle_run_out hi rfl

/-- A call that finds its core code programmed returns after one read (R123). -/
theorem controller_run_early (hi : isCommand i = true) (hst : s.st = .sVQuant)
    (heq : vcoreOf s.cfg s.vtarg = quant s.vUv) {t : State}
    (hret : vReturn { afterRead .vtarg (ruleVQuant s) with vOld := quant s.vUv } = .next t) :
    execTimes i 2 s = .next t := by
  rw [execTimes_rule _ hi (by simp [hst]) (ruleOf_sVQuant hst),
    execTimes_rule _ hi (by nofun) ((ruleOf_sVRdCur rfl).trans ((ruleVRdCur_of_eq (s := ruleVQuant s) heq).trans hret)),
    execTimes_zero]

end Sys2Proof.Machine
end

section
/-! PROOF. Every VTARG word a command writes keeps the secondary rail's floor (43 R124, R130; 70 R239 P6): only
S_V_RMW_WR writes VTARG, and there the latches hold the codes of R122 and R124. -/

namespace Sys2Proof.Machine

variable {s t : State} {f : State → Host.Outcome State Fault Refusal}

/-! ### What a rule appends to the bus trace -/

/-- A state that keeps its form under other records holds those: so a rule that commutes with other records appends to
the bus trace what it appends to them (60 R208). -/
theorem bus_of_withRecords {b : List BusEvent} {r : List Response} {d : List DiagEvent} {rail : Bool}
    (h : t = withRecords b r d rail t) : t.bus = b := congrArg State.bus h

theorem bus_of_mapNext {b : List BusEvent} {r : List Response} {d : List DiagEvent} {rail : Bool}
    (h : f s = .next t) (hf : f s = mapNext (withRecords b r d rail) (f s)) : t.bus = b := by
  rw [h] at hf
  exact bus_of_withRecords (Host.Outcome.next.inj hf)

@[simp] theorem writesOf_append_rd (t : List BusEvent) (a d : Word) : writesOf (t ++ [.rd a d]) = writesOf t := by
  simp [writesOf]

theorem writesOf_append_wr (t : List BusEvent) (a d : Word) :
    writesOf (t ++ [.wr a d]) = writesOf t ++ [.wr a d] := by
  simp [writesOf]

/-- A rule writes nothing on the bus, or writes PLL or CDIV, or is that of S_V_RMW_WR. -/
inductive RuleBusWrite (s t : State) : Prop where
  | none (bus : writesOf t.bus = writesOf s.bus)
  | pll (w : Word) (bus : t.bus = s.bus ++ [.wr s.cfg.aPll w])
  | cdiv (w : Word) (bus : t.bus = s.bus ++ [.wr s.cfg.aCdiv w])
  | vtarg (st : s.st = .sVRmwWr) (eq : t = ruleVRmwWr s)

/-- A rule that appends nothing to the bus trace. -/
theorem RuleBusWrite.of_quiet (h : t.bus = s.bus) : RuleBusWrite s t := .none (congrArg writesOf h)

/-- A rule that appends one read. -/
theorem RuleBusWrite.of_read {a d : Word} (h : t.bus = s.bus ++ [.rd a d]) : RuleBusWrite s t :=
  .none (by rw [h, writesOf_append_rd])

theorem ruleBusWrite_ruleOf (h : ruleOf s = .next t) : RuleBusWrite s t := by
  unfold ruleOf at h
  rcases hst : s.st <;> rw [hst] at h
  case sEntry => cases h; exact .of_quiet (bus_of_withRecords (ruleEntry_withRecords _ _ _ _ s))
  case sLookup => exact .of_quiet (bus_of_mapNext h (ruleLookup_withRecords _ _ _ _ s))
  case sRdDiv => cases h; exact .of_read rfl
  case sRdPodf => cases h; exact .of_read (bus_of_withRecords (ruleRdPodf_withRecords _ _ _ _ s))
  case sVRdCur => exact .of_read (bus_of_mapNext h (ruleVRdCur_withRecords _ _ _ _ s))
  case sVRmwWr => cases h; exact .vtarg hst rfl
  case sVSettle => cases h; exact .of_quiet (bus_of_withRecords (ruleVSettle_withRecords _ _ _ _ s))
  case sVDiag => exact .of_quiet (bus_of_mapNext (s := emitDiag s) h (vReturn_withRecords _ _ _ _ (emitDiag s)))
  case sDivselWr =>
    cases h; exact .pll _ (congrArg State.bus (startPolls_withRecords _ s.rsp s.diag _ (memWrite .pll _ s)))
  case sWaitLock => cases h; exact .of_read (bus_of_withRecords (ruleWaitLock_withRecords _ _ _ _ s))
  case sPost => cases h; exact .of_quiet (bus_of_withRecords (rulePost_withRecords _ _ _ _ s))
  case sBypsrcWr | sBypsetWr | sUnbypWr => cases h; exact .pll _ rfl
  case sPodfWr => cases h; exact .cdiv _ rfl
  case sVRmwRd | sBypsrcRd | sBypsetRd | sDivselRd | sUnbypRd | sPodfRd => cases h; exact .of_read rfl
  case sIdle | sVQuant | sRespond => cases h; exact .of_quiet rfl

/-- Of a command's rules, only S_V_RMW_WR writes VTARG. -/
theorem ruleVRmwWr_of_vtargWrite {w : Word} (wf : s.cfg.WF) (h : ruleOf s = .next t)
    (hb : t.bus = s.bus ++ [.wr s.cfg.aVtarg w]) : s.st = .sVRmwWr ∧ t = ruleVRmwWr s := by
  cases ruleBusWrite_ruleOf h with
  | none bus => rw [hb, writesOf_append_wr] at bus; simp at bus
  | pll w' bus => rw [hb] at bus; simp [wf.pllVtargApart.symm] at bus
  | cdiv w' bus => rw [hb] at bus; simp [wf.cdivVtargApart.symm] at bus
  | vtarg st eq => exact ⟨st, eq⟩

/-- With a command in flight, only the sequencer's rule appends to the bus trace. -/
theorem ruleOf_of_busEvent {e : BusEvent} (hf : CommandInFlight s) (h : step s = .next t) (hb : t.bus = s.bus ++ [e]) :
    ruleOf { s with sched := s.sched.tail } = .next t := by
  cases step_cases h with
  | sequencer _ turn =>
    cases turn with
    | wait _ st | take _ st | start _ st => exact absurd st hf.2
    | goOn d md => exact absurd (hf.1.symm.trans md) (by simp)
    | rule _ run => exact run
  | present _ _ _ e | consume _ _ e | lock _ _ e | drop _ _ e | settle _ _ e | reset _ _ _ _ e =>
    subst e; simp [resetEvent] at hb

/-! ### The latches of S_V_RMW_WR -/

theorem vSoc_eq_socCode_of_pathInv (hp : PathInv s) (hst : s.st = .sVRmwWr) : s.vSoc = socCode s.vCore := by
  unfold PathInv at hp
  rw [hst] at hp
  obtain ⟨_, _, hsoc, _⟩ := hp
  exact hsoc

/-- Settles O53: the word is that of R126 with the secondary code max(c, 18) of R124. -/
theorem writtenSecondaryCodeKeepsFloor : Obligations.WrittenSecondaryCodeKeepsFloor := by
  intro s t w hi hf h hb
  have hpath := (inv_setPorts hi s.sched.tail s.port s.rspOut s.railSettled).path
  obtain ⟨hst, ht⟩ := ruleVRmwWr_of_vtargWrite (s := { s with sched := s.sched.tail }) hi.cfgWF
    (ruleOf_of_busEvent hf h hb) hb
  have hw : withTargets s.cfg s.tmp s.vCore s.vSoc = w := by
    have hbus : s.bus ++ [.wr s.cfg.aVtarg (withTargets s.cfg s.tmp s.vCore s.vSoc)] = t.bus := by rw [ht]; rfl
    simpa using hbus.trans hb
  have hsoc : s.vSoc = socCode s.vCore := vSoc_eq_socCode_of_pathInv hpath hst
  have hfloor : (vsocOf s.cfg w).toNat = max (vcoreOf s.cfg w).toNat 18 := by
    rw [← hw, vsocOf_withTargets hi.cfgWF, vcoreOf_withTargets hi.cfgWF, hsoc, socCode_toNat]
  exact ⟨by omega, by omega, by rw [ht, ← hw]; rfl⟩

end Sys2Proof.Machine
end

section
/-! PROOF. No coherent state faults (43 R129; 41 R101, R103; 70 R223): the two faults need a return without a caller, or
a table consulted for an unknown family, and the invariant of each state excludes them. -/

namespace Sys2Proof.Machine

variable {s : State}

/-- A running call has a caller to return to. -/
theorem vReturn_answers (hc : Calling s) : ∃ t, vReturn s = .next t := by
  obtain ⟨_, _, ⟨hp, _⟩ | ⟨hp, _⟩ | ⟨hp, _⟩⟩ := hc
  · exact ⟨_, vReturn_of_last (.inr hp)⟩
  · exact ⟨_, vReturn_of_pre hp⟩
  · exact ⟨_, vReturn_of_last (.inl hp)⟩

theorem ruleVRdCur_answers (hc : Calling s) : ∃ t, ruleVRdCur s = .next t := by
  by_cases h : vcoreOf s.cfg s.vtarg = s.vCore
  · rw [ruleVRdCur_of_eq h]; exact vReturn_answers (s := { afterRead .vtarg s with vOld := s.vCore }) hc
  · exact ⟨_, ruleVRdCur_of_ne h⟩

theorem ruleLookup_answers (hf : s.family = s.cfg.fam0) : ∃ t, ruleLookup s = .next t := by
  rcases hrow : lookupRow s.cfg s.arg with _ | r
  · exact ⟨_, ruleLookup_of_none hf hrow⟩
  · exact ⟨_, ruleLookup_of_some hf hrow⟩

/-- Every rule of a coherent sequencer answers a next state. -/
theorem ruleOf_answers (hp : PathInv s) : ∃ t, ruleOf s = .next t := by
  unfold PathInv at hp
  unfold ruleOf
  rcases hst : s.st <;> rw [hst] at hp
  case sLookup => obtain ⟨_, _, _, hf⟩ := hp; exact ruleLookup_answers hf
  case sVRdCur => exact ruleVRdCur_answers hp.1
  case sVDiag => exact vReturn_answers (s := emitDiag s) hp.1
  all_goals exact ⟨_, rfl⟩

theorem runWord_mop_answers (d : BitVec 25) (s : State) :
    (∃ t, runWord (.mop d) s = .next t) ∨ runWord (.mop d) s = .refused .reservedDescriptor := by
  rcases runWord_mop d s with hr | ⟨t, ht, _⟩
  · exact .inr hr
  · exact .inl ⟨t, ht⟩

/-- A descriptor is in flight or the oldest word at the port. -/
def FacesDescriptor (s : State) : Prop := ∃ d, s.md = some d ∨ ∃ rest, s.port = .mop d :: rest

/-- The turn of a coherent sequencer stops only on a reserved descriptor. -/
theorem seqTurn_answers (hi : Inv s) :
    (∃ t, seqTurn s = .next t) ∨ (seqTurn s = .refused .reservedDescriptor ∧ FacesDescriptor s) := by
  rcases hmd : s.md with _ | d
  case some => rw [seqTurn_mop hmd]; exact (runWord_mop_answers d s).imp_right fun hr => ⟨hr, d, .inl hmd⟩
  by_cases hst : s.st = .sIdle
  · rw [seqTurn_atRest hmd hst]
    rcases hport : s.port with _ | ⟨cw | d, rest⟩
    · exact .inl ⟨_, rfl⟩
    · exact .inl ⟨_, rfl⟩
    · exact (runWord_mop_answers d _).imp_right fun hr => ⟨hr, d, .inr ⟨rest, hport⟩⟩
  · rw [seqTurn_inFlight ⟨hmd, hst⟩]; exact .inl (ruleOf_answers hi.path)

/-- Settles O46: by who moves; the sequencer's turn by `seqTurn_answers`, and of the other agents only a reset in flight
and a foreign writer are refused. -/
theorem coherentStatesNeverFault : Obligations.CoherentStatesNeverFault := by
  intro s hi
  have turn (ms : List Move) :
      (∃ t, seqTurn { s with sched := ms } = .next t) ∨
        (seqTurn { s with sched := ms } = .refused .reservedDescriptor ∧ FacesDescriptor s) :=
    seqTurn_answers (inv_setPorts hi ms s.port s.rspOut s.railSettled)
  rcases hs : s.sched with _ | ⟨m, rest⟩
  · rw [step_of_sequencerMoves (.inl hs)]
    exact (turn _).imp_right .inl
  have hstep : step s = takeMove m { s with sched := rest } := by rw [step, takeTurn, hs]
  rw [hstep]
  cases m with
  | sequencer => exact (turn rest).imp_right .inl
  | resetAsserted =>
    rw [takeMove, resetAsserted]
    split
    · exact .inl ⟨_, rfl⟩
    · exact .inr (.inr (.inl ⟨rfl, rest, rfl⟩))
  | foreignWrite r w => exact .inr (.inr (.inr ⟨rfl, r, w, rest, rfl⟩))
  | hostPresent | hostConsume | pllLocks | pllDropsLock | railsSettle => exact .inl ⟨_, rfl⟩

end Sys2Proof.Machine
end

section
/-! PROOF. SETOP as a whole (43 R120): acceptance, S_ENTRY, one call of the controller, S_RESPOND; and its idempotence
(43 R130 (b)). -/

namespace Sys2Proof.Machine

variable {s : State} {uv : Word}

/-! ### The steps (44 R141, R142) -/

/-- S_ENTRY calls the controller with the command's own voltage when the family is implemented. -/
theorem ruleEntry_of_setop (hc : s.cmd = opSetop) (hf : s.family = s.cfg.fam0) :
    ruleEntry s = { s with vUv := s.arg, vphase := .alone, st := .sVQuant } := by
  rw [ruleEntry, if_neg (by rw [hc]; decide), if_pos hc,
    if_pos (show familyImplemented s = true from decide_eq_true hf)]

theorem ruleEntry_of_setop_unsupported (hc : s.cmd = opSetop) (hf : s.family ≠ s.cfg.fam0) :
    ruleEntry s = raise .unsupportedFamily s := by
  rw [ruleEntry, if_neg (by rw [hc]; decide), if_pos hc,
    if_neg (show ¬ familyImplemented s = true from fun h => hf (of_decide_eq_true h))]

/-- The first two steps of SETOP: acceptance and S_ENTRY. -/
theorem setop_run_entered (hst : s.st = .sIdle) (n : Nat) :
    execTimes (.setop uv) (n + 2) s = execTimes (.setop uv) n (ruleEntry (accept opSetop uv s)) := by
  rw [execTimes_succ (n + 1) ((exec_setop uv s).trans (commandStep_idle hst opSetop uv)),
    execTimes_rule n rfl (by simp) (ruleOf_sEntry rfl)]

/-- The controller as SETOP calls it. -/
def setopCall (uv : Word) (s : State) : State :=
  { accept opSetop uv s with vUv := uv, vphase := .alone, st := .sVQuant }

theorem setop_run_called (hst : s.st = .sIdle) (hf : s.family = s.cfg.fam0) (n : Nat) :
    execTimes (.setop uv) (n + 2) s = execTimes (.setop uv) n (setopCall uv s) := by
  rw [setop_run_entered hst, ruleEntry_of_setop (s := accept opSetop uv s) rfl hf]; rfl

/-! ### The command -/

/-- SETOP of a voltage whose core code is programmed: two steps of the controller, then the answer. -/
theorem setop_run_early (hst : s.st = .sIdle) (hf : s.family = s.cfg.fam0) (heq : vcoreOf s.cfg s.vtarg = quant uv) :
    execTimes (.setop uv) 5 s =
      .next (respond (succeed { afterRead .vtarg (ruleVQuant (setopCall uv s)) with
        vOld := quant uv, vphase := .none })) := by
  rw [setop_run_called hst hf 3,
    execTimes_add 1 (controller_run_early rfl rfl (s := setopCall uv s) heq (vReturn_of_last (.inr rfl))),
    execTimes_respond rfl rfl]
  rfl

/-- SETOP of a voltage with another core code: a whole call, its report, then the answer. -/
theorem setop_run_write (hst : s.st = .sIdle) (hf : s.family = s.cfg.fam0) (hne : vcoreOf s.cfg s.vtarg ≠ quant uv) :
    execTimes (.setop uv) (s.cfg.settleTicks.toNat + 9) s =
      .next (respond (succeed { emitDiag (callSettled (setopCall uv s)) with vphase := .none })) := by
  have hcall : execTimes (.setop uv) (s.cfg.settleTicks.toNat + 5) (setopCall uv s) =
      .next (callSettled (setopCall uv s)) := controller_run (s := setopCall uv s) rfl rfl hne
  rw [setop_run_called hst hf (s.cfg.settleTicks.toNat + 5 + 2), execTimes_add 2 hcall,
    execTimes_rule 1 rfl (by nofun) ((ruleOf_sVDiag rfl).trans
      (vReturn_of_last (s := emitDiag (callSettled (setopCall uv s))) (.inr rfl))),
    execTimes_respond rfl rfl]

/-- Settles O18: UnsupportedFamily out of S_ENTRY, the early return, or the whole call. -/
theorem setopCommandProgramsBothRails : Obligations.SetopCommandProgramsBothRails := by
  intro s uv hst hcmd hv
  refine ⟨fun hf => ?unsupported, fun hf heq => ?early, fun hf hne => ?write⟩
  case unsupported =>
    rw [setop_run_entered hst 1, ruleEntry_of_setop_unsupported (s := accept opSetop uv s) rfl hf,
      execTimes_respond rfl rfl, respond_raise_accept hst hcmd]
  case early =>
    rw [setop_run_early hst hf heq]
    simp [respond, succeed, afterRead, ruleVQuant, setopCall, accept, addrOf, busValue, hst, hcmd, hv]
  case write =>
    refine ⟨socCode (quant uv), _, socCode_toNat _, rfl, ?_⟩
    rw [setop_run_write hst hf hne]
    simp [respond, succeed, emitDiag, callSettled, callWord, storeReg, setopCall, accept, hst, hcmd, hv]

/-! ### Idempotence (43 R130 (b)) -/

/-- The sequencer can take a SETOP it will not reject for the family. -/
structure ReadyForSetop (s : State) : Prop where
  st : s.st = .sIdle
  cmd : s.cmd = 0#4
  vphase : s.vphase = .none
  family : s.family = s.cfg.fam0

/-- A SETOP ends ready for the next, with OK and its core code programmed. -/
theorem setop_programs_core (hs : ReadyForSetop s) (wf : s.cfg.WF) (uv : Word) :
    ∃ n t, execTimes (.setop uv) n s = .next t ∧ ReadyForSetop t ∧ t.rsp = s.rsp ++ [⟨.ok, 0#32⟩] ∧
      vcoreOf t.cfg t.vtarg = quant uv := by
  obtain ⟨hst, hcmd, hv, hf⟩ := hs
  obtain ⟨_, hearly, hwrite⟩ := setopCommandProgramsBothRails s uv hst hcmd hv
  by_cases hcode : vcoreOf s.cfg s.vtarg = quant uv
  · exact ⟨_, _, hearly hf hcode, ⟨hst, hcmd, hv, hf⟩, rfl, hcode⟩
  · obtain ⟨soc, w, _, hw, hrun⟩ := hwrite hf hcode
    exact ⟨_, _, hrun, ⟨hst, hcmd, hv, hf⟩, rfl, by rw [hw]; exact vcoreOf_withTargets wf _ _ _⟩

/-- A SETOP of the programmed core code answers OK and writes nothing. -/
theorem setop_of_programmed (hs : ReadyForSetop s) (hcode : vcoreOf s.cfg s.vtarg = quant uv) :
    ∃ u, execTimes (.setop uv) 5 s = .next u ∧ u.st = .sIdle ∧ u.rsp = s.rsp ++ [⟨.ok, 0#32⟩] ∧
      vcoreOf u.cfg u.vtarg = quant uv ∧ u.vtarg = s.vtarg ∧ writesOf u.bus = writesOf s.bus := by
  obtain ⟨hst, hcmd, hv, hf⟩ := hs
  obtain ⟨_, hearly, _⟩ := setopCommandProgramsBothRails s uv hst hcmd hv
  exact ⟨_, hearly hf hcode, hst, rfl, hcode, rfl, writesOf_append_rd _ _ _⟩

/-- Settles O24: the first SETOP leaves the core code programmed, so the second returns early. -/
theorem secondSetopOfSameCodeWritesNothing : Obligations.SecondSetopOfSameCodeWritesNothing := by
  intro s uv uv' hst hcmd hv wf hf hsame
  obtain ⟨n, t, hfirst, hready, hrsp, hcore⟩ := setop_programs_core ⟨hst, hcmd, hv, hf⟩ wf uv
  obtain ⟨u, hsecond, hidle, hrsp', hcore', hvtarg, hwrites⟩ := setop_of_programmed hready (hcore.trans hsame.symm)
  refine ⟨n, t, u, hfirst, hready.st, hsecond, hidle, ?_, hcore'.trans hsame, hvtarg, hwrites⟩
  rw [hrsp', hrsp, List.append_assoc]; rfl

end Sys2Proof.Machine
end

section
/-! PROOF. What the sequencer's turn works on (44 R141, R165; 10_state.md R10, R11): the decoded word, or the command
that CMD and ARG hold; and the port, which a command in flight leaves alone. -/

namespace Sys2Proof.Machine

variable {s : State}

/-- A word that decodes runs as its instruction. -/
theorem runWord_of_decode {w : FetchWord} {i : Instr} (h : decode w = .ok i) (s : State) : runWord w s = exec i s := by
  rw [runWord, h]

/-- A command in flight is the command that CMD and ARG hold (44 R142). -/
theorem seqTurn_inFlight_of_decode {i : Instr} (hf : CommandInFlight s)
    (h : decode (.cmd (cmdWord s.cmd s.arg)) = .ok i) : seqTurn s = exec i s := by
  rw [seqTurn_inFlight hf, ← commandStep_busy hf.2 s.cmd s.arg, ← runWord_cmdWord, runWord_of_decode h]

/-- A resting sequencer with no word at its port waits (44 R141). -/
theorem step_waits (hmoves : SequencerMoves s) (hmd : s.md = none) (hst : s.st = .sIdle) (hport : s.port = []) :
    step s = .next { s with sched := s.sched.tail } := by
  rw [step_of_sequencerMoves hmoves, seqTurn_atRest (s := { s with sched := s.sched.tail }) hmd hst]
  simp only [hport]

/-- Settles O5: by what the turn finds: a command word or a descriptor at the port, a command or a descriptor in flight,
or nothing. -/
theorem stepRunsDecodedInstruction : Obligations.StepRunsDecodedInstruction := by
  intro s hmoves
  refine ⟨fun hmd hst cw rest i hport hdec => ?command, fun hmd hst d rest i hport hdec => ?descriptor,
    fun hmd hst i hdec => ?inFlight, fun d i hmd hdec => ?goOn, step_waits hmoves⟩
  case command =>
    rw [← runWord_of_decode hdec, runWord_cmd,
      commandStep_idle (s := { s with sched := s.sched.tail, port := rest }) hst]
    exact step_takes_cmd hmoves hmd hst hport
  case descriptor => rw [← runWord_of_decode hdec]; exact step_takes_mop hmoves hmd hst hport
  case inFlight =>
    rw [step_of_sequencerMoves hmoves]
    exact seqTurn_inFlight_of_decode (s := { s with sched := s.sched.tail }) ⟨hmd, hst⟩ hdec
  case goOn =>
    rw [step_of_sequencerMoves hmoves, ← runWord_of_decode hdec]
    exact seqTurn_mop (s := { s with sched := s.sched.tail }) hmd

/-- On the sequencer's turn a command in flight takes the step of the rule `ST` selects. -/
theorem step_sequencer_inFlight (hmoves : SequencerMoves s) (hf : CommandInFlight s) :
    step s = ruleOf { s with sched := s.sched.tail } :=
  (step_of_sequencerMoves hmoves).trans (seqTurn_inFlight (s := { s with sched := s.sched.tail }) hf)

/-- Settles O6: acceptance is `accept`, no rule touches the port, and at rest the sequencer waits. -/
theorem commandAcceptanceAndHold : Obligations.CommandAcceptanceAndHold := by
  refine ⟨fun s a hst => ⟨?_, ?_, ?_, ?_⟩, fun s t hmoves hf h => ?hold, fun s => step_waits⟩
  · exact commandStep_idle hst opSetfreq a
  · exact commandStep_idle hst opRdfreq a
  · exact commandStep_idle hst opSetop a
  · exact commandStep_idle hst opLookup a
  case hold =>
    rw [step_sequencer_inFlight hmoves hf] at h
    exact (ruleFrame_ruleOf h).port

end Sys2Proof.Machine
end

section
/-! PROOF. Entry and table (44 R142, R143), each of their cases an equation of the rule. -/

namespace Sys2Proof.Machine

variable {s : State}

/-- S_ENTRY rejects the three commands that need the family when it is not implemented. -/
theorem ruleEntry_of_unimplemented (hc : s.cmd = opSetfreq ∨ s.cmd = opSetop ∨ s.cmd = opLookup)
    (hf : s.family ≠ s.cfg.fam0) : ruleEntry s = raise .unsupportedFamily s := by
  rcases hc with hc | hc | hc
  · exact ruleEntry_of_tableCommand_unsupported (.inl hc) hf
  · exact ruleEntry_of_setop_unsupported hc hf
  · exact ruleEntry_of_tableCommand_unsupported (.inr hc) hf

/-- Settles O7: the dispatch of S_ENTRY, opcode by opcode. -/
theorem entryDispatchesAndChecksFamily : Obligations.EntryDispatchesAndChecksFamily := by
  intro i s hi hst
  have hentry {t : State} (h : ruleEntry s = t) : exec i s = .next t :=
    exec_atState hi hst nofun ((ruleOf_sEntry hst).trans (congrArg _ h))
  exact ⟨fun hc hf => hentry (ruleEntry_of_tableCommand hc hf), fun hc hf => hentry (ruleEntry_of_setop hc hf),
    fun hc hf => hentry (ruleEntry_of_unimplemented hc hf), fun hc => hentry (ruleEntry_of_rdfreq hc),
    fun hc => hentry (ruleEntry_of_reserved hc)⟩

/-- S_LOOKUP ends a LOOKUP with the packed row. -/
theorem lookupFound_of_lookup (hc : s.cmd = opLookup) (r : Row) :
    lookupFound r s = succeed { latchRow r s with rdata := packRow r } := if_pos hc

/-- S_LOOKUP sends a SETFREQ on to the reader. -/
theorem lookupFound_of_setfreq (hc : s.cmd ≠ opLookup) (r : Row) :
    lookupFound r s = { latchRow r s with st := .sRdDiv } := if_neg hc

/-- Settles O8: no row under the target, or the one row, for LOOKUP and for SETFREQ. -/
theorem lookupStateResolvesExactKey : Obligations.LookupStateResolvesExactKey := by
  intro i s hi hst hf wf
  have hlookup {t : State} (h : ruleLookup s = .next t) : exec i s = .next t :=
    exec_atState hi hst nofun ((ruleOf_sLookup hst).trans h)
  have hfound {r : Row} (hr : r ∈ s.cfg.table) (hk : r.key = s.arg) : ruleLookup s = .next (lookupFound r s) :=
    ruleLookup_of_some hf (hk ▸ lookupRow_of_mem wf hr)
  refine ⟨fun hmiss => ?missed, fun r hr hk hc => ?answer, fun r hr hk hc => ?goOn⟩
  case missed => exact hlookup (ruleLookup_of_none hf (lookupRow_eq_none hmiss))
  case answer =>
    refine ⟨packRow r, packRow_toNat (wf.rowUvSmall r hr), hlookup ?_⟩
    rw [hfound hr hk, lookupFound_of_lookup hc]; rfl
  case goOn =>
    refine hlookup ?_
    rw [hfound hr hk, lookupFound_of_setfreq hc]; rfl

end Sys2Proof.Machine
end

section
/-! PROOF. The reader and the direction check (44 R144 to R147; 42 R112). -/

namespace Sys2Proof.Machine

variable {s : State}

/-- Settles O9: the two reads; the frequency of a 7-bit divider fits 32 bits. -/
theorem readerComputesFieldFrequency : Obligations.ReaderComputesFieldFrequency := by
  intro i s hi wf
  refine ⟨fun hst => ?divider, fun hst hc => ?frequency⟩
  case divider =>
    exact exec_atState hi hst nofun ((ruleOf_sRdDiv hst).trans (congrArg _ (ruleRdDiv_eq wf)))
  case frequency =>
    have hrule : ruleRdPodf s = succeed { readPodf s with rdata := (readPodf s).curHz } := if_pos hc
    refine ⟨freq s.rdDiv (podfOf s.cfg s.cdiv), ?_, exec_atState hi hst nofun ?_⟩
    · have hdiv := s.rdDiv.isLt
      rw [freq_toNat _ (by rw [Config.oscHz]; omega), podfOf_toNat wf, Config.oscHz]
    · exact (ruleOf_sRdPodf hst).trans (congrArg _ hrule)

/-! ### Compare and direction (44 R146, R147) -/

theorem ruleRdPodf_of_setfreq (hc : s.cmd = opSetfreq) : ruleRdPodf s = compareAndDirect (readPodf s) :=
  if_neg (by rw [hc]; decide)

/-- At its target the command is done. -/
theorem compareAndDirect_of_eq (h : s.curHz = s.arg) : compareAndDirect s = succeed s :=
  if_pos (decide_eq_true h.symm)

/-- Below its target it is an increase, and the controller is called first. -/
theorem compareAndDirect_of_lt (h : s.curHz.toNat < s.arg.toNat) :
    compareAndDirect s = { s with inc := true, vUv := s.opUv, vphase := .pre, st := .sVQuant } := by
  have hne : ¬ atTarget s.arg s.curHz = true := fun e => h.ne (congrArg BitVec.toNat (of_decide_eq_true e)).symm
  have hinc : increasing s.arg s.curHz = true := decide_eq_true h
  rw [compareAndDirect, if_neg hne, hinc]; rfl

/-- Above its target it is a decrease, and goes on with the PLL. -/
theorem compareAndDirect_of_gt (h : s.arg.toNat < s.curHz.toNat) :
    compareAndDirect s = { s with inc := false, st := .sBypsrcRd } := by
  have hne : ¬ atTarget s.arg s.curHz = true := fun e => h.ne (congrArg BitVec.toNat (of_decide_eq_true e))
  have hinc : increasing s.arg s.curHz = false := decide_eq_false h.not_gt
  rw [compareAndDirect, if_neg hne, hinc]; rfl

/-- Settles O10: the three outcomes of the comparison. -/
theorem compareDirectionAndPreRaise : Obligations.CompareDirectionAndPreRaise := by
  intro i s p hz hi hst hc hp hhz
  subst hp hhz
  have hrule {t : State} (h : compareAndDirect (readPodf s) = t) : exec i s = .next t :=
    exec_atState hi hst nofun ((ruleOf_sRdPodf hst).trans (congrArg _ ((ruleRdPodf_of_setfreq hc).trans h)))
  exact ⟨fun h => hrule (compareAndDirect_of_eq h), fun h => hrule (compareAndDirect_of_lt h),
    fun h => hrule (compareAndDirect_of_gt h)⟩

end Sys2Proof.Machine
end

section
/-! PROOF. The PLL's states and those after it (44 R148 to R161), and the bounded wait for its lock (44 R155; 60
R194). -/

namespace Sys2Proof.Machine

variable {s : State} {i : Instr}

/-! ### Programming (44 R148 to R153) -/

theorem startPolls_eq (s : State) :
    startPolls s = { s with polls := if s.cfg.lockDeadline = none then s.polls else 0#32 } := by
  unfold startPolls
  split
  next hd => rw [if_pos hd]
  next n hd => rw [if_neg (by simp [hd])]

theorem ruleDivselWr_eq (s : State) :
    ruleDivselWr s = { memWrite .pll (insertField s.tmp s.cfg.divOff s.cfg.divMask s.opDiv) s with
      polls := if s.cfg.lockDeadline = none then s.polls else 0#32
      st := .sWaitLock } := by
  rw [ruleDivselWr, startPolls_eq]; rfl

/-- Settles O13: the three read halves and the three write halves. -/
theorem pllProgrammingStates : Obligations.PllProgrammingStates := by
  intro i s hi
  refine ⟨fun x y hxy hst => ?reads, fun hst => ?source, fun hst => ?bypass, fun hst => ?divider⟩
  case reads =>
    simp only [List.mem_cons, List.not_mem_nil, Prod.mk.injEq, or_false] at hxy
    obtain ⟨rfl, rfl⟩ | ⟨rfl, rfl⟩ | ⟨rfl, rfl⟩ := hxy
    · exact exec_atState hi hst nofun (ruleOf_sBypsrcRd hst)
    · exact exec_atState hi hst nofun (ruleOf_sBypsetRd hst)
    · exact exec_atState hi hst nofun (ruleOf_sDivselRd hst)
  case source => exact exec_atState hi hst nofun (ruleOf_sBypsrcWr hst)
  case bypass => exact exec_atState hi hst nofun (ruleOf_sBypsetWr hst)
  case divider => exact exec_atState hi hst nofun ((ruleOf_sDivselWr hst).trans (congrArg _ (ruleDivselWr_eq s)))

/-! ### The lock poll (44 R154, R155) -/

theorem ruleWaitLock_of_locked (h : s.pllLock = true) : ruleWaitLock s = { afterRead .pll s with st := .sUnbypRd } := by
  rw [ruleWaitLock, if_pos ((lockSeen_busValue s).trans h)]

theorem ruleWaitLock_of_unlocked (h : s.pllLock = false) : ruleWaitLock s = pollFailed (afterRead .pll s) := by
  rw [ruleWaitLock, if_neg (by rw [lockSeen_busValue, h]; decide)]

theorem pollFailed_of_unbounded (hd : s.cfg.lockDeadline = none) : pollFailed s = s := by
  rw [pollFailed, hd]

variable {n : Word}

theorem pollFailed_of_lt (hd : s.cfg.lockDeadline = some n) (h : (s.polls + 1#32).toNat < n.toNat) :
    pollFailed s = { s with polls := s.polls + 1#32 } := by
  simp only [pollFailed, hd, if_neg h.not_ge]

theorem pollFailed_of_le (hd : s.cfg.lockDeadline = some n) (h : n.toNat ≤ (s.polls + 1#32).toNat) :
    pollFailed s = raise .hardwareTimeout { s with polls := s.polls + 1#32 } := by
  simp only [pollFailed, hd, if_pos h]

/-- Settles O14: a poll that sees the lock, and a failed one without a deadline, before it and at it. -/
theorem lockPollLeavesOnlyOnLockOrDeadline : Obligations.LockPollLeavesOnlyOnLockOrDeadline := by
  intro i s b hi hst hb
  subst hb
  have hrule {t : State} (h : ruleWaitLock s = t) : exec i s = .next t :=
    exec_atState hi hst nofun ((ruleOf_sWaitLock hst).trans (congrArg _ h))
  refine ⟨fun hl => hrule (ruleWaitLock_of_locked hl), fun hl hd => ?unbounded, fun hl n hd k hk => ?bounded⟩
  case unbounded =>
    exact hrule ((ruleWaitLock_of_unlocked hl).trans (pollFailed_of_unbounded (s := afterRead .pll s) hd))
  case bounded =>
    subst hk
    exact ⟨fun h => hrule ((ruleWaitLock_of_unlocked hl).trans (pollFailed_of_lt (s := afterRead .pll s) hd h)),
      fun h => hrule ((ruleWaitLock_of_unlocked hl).trans (pollFailed_of_le (s := afterRead .pll s) hd h))⟩

/-- The state after `k` failed polls of a bounded wait, the deadline not yet reached. -/
def polled (k : Nat) (s : State) : State :=
  { s with
    bus := s.bus ++ List.replicate k (.rd s.cfg.aPll (busValue .pll s))
    polls := s.polls + BitVec.ofNat 32 k }

theorem afterRead_polled (k : Nat) (s : State) :
    { afterRead .pll (polled k s) with polls := (polled k s).polls + 1#32 } = polled (k + 1) s := by
  have hpolls : s.polls + BitVec.ofNat 32 k + 1#32 = s.polls + BitVec.ofNat 32 (k + 1) := by
    rw [BitVec.add_assoc, BitVec.ofNat_add]
  have hbus : s.bus ++ List.replicate k (BusEvent.rd s.cfg.aPll (busValue .pll s)) ++
      [.rd s.cfg.aPll (busValue .pll s)] = s.bus ++ List.replicate (k + 1) (.rd s.cfg.aPll (busValue .pll s)) := by
    rw [List.append_assoc, List.replicate_succ']
  show { s with bus := s.bus ++ _ ++ [BusEvent.rd s.cfg.aPll (busValue .pll s)], polls := s.polls + _ + 1#32 } = _
  rw [hpolls, hbus]; rfl

/-- The count of the poll after `k` failed ones of a wait entered with POLLS = 0. -/
theorem polls_polled (hp : s.polls = 0#32) {k : Nat} (hk : k + 1 ≤ n.toNat) :
    ((polled k s).polls + 1#32).toNat = k + 1 := by
  have := n.isLt
  simp only [polled, hp, BitVec.zero_add, BitVec.toNat_add, BitVec.toNat_ofNat]
  omega

/-- A poll short of the deadline only counts. -/
theorem ruleWaitLock_polled_of_lt (hl : s.pllLock = false) (hd : s.cfg.lockDeadline = some n) (hp : s.polls = 0#32)
    {k : Nat} (hk : k + 1 < n.toNat) : ruleWaitLock (polled k s) = polled (k + 1) s := by
  have hcount : ((afterRead .pll (polled k s)).polls + 1#32).toNat < n.toNat := (polls_polled hp hk.le).trans_lt hk
  rw [ruleWaitLock_of_unlocked (s := polled k s) hl, pollFailed_of_lt (s := afterRead .pll (polled k s)) hd hcount]
  exact afterRead_polled k s

/-- The poll at the deadline raises HardwareTimeout. -/
theorem ruleWaitLock_polled_of_eq (hl : s.pllLock = false) (hd : s.cfg.lockDeadline = some n) (hp : s.polls = 0#32)
    {k : Nat} (hk : k + 1 = n.toNat) : ruleWaitLock (polled k s) = raise .hardwareTimeout (polled (k + 1) s) := by
  have hcount : n.toNat ≤ ((afterRead .pll (polled k s)).polls + 1#32).toNat := hk.ge.trans (polls_polled hp hk.le).ge
  rw [ruleWaitLock_of_unlocked (s := polled k s) hl, pollFailed_of_le (s := afterRead .pll (polled k s)) hd hcount]
  exact congrArg (raise _) (afterRead_polled k s)

/-- Failed polls one after another, while the deadline is ahead. -/
theorem poll_run (hi : isCommand i = true) (hst : s.st = .sWaitLock) (hl : s.pllLock = false)
    (hd : s.cfg.lockDeadline = some n) (hp : s.polls = 0#32) (k : Nat) (hk : k < n.toNat) :
    execTimes i k s = .next (polled k s) := by
  induction k with
  | zero => simp [polled]
  | succ k ih =>
    rw [execTimes_add 1 (ih (by omega)),
      execTimes_rule (s := polled k s) 0 hi (by rw [polled, hst]; decide) (ruleOf_sWaitLock hst),
      ruleWaitLock_polled_of_lt hl hd hp hk, execTimes_zero]

/-- Settles O22: polls short of the deadline only count, and the last one raises. -/
theorem deadlineRaisesTimeoutAfterNPolls : Obligations.DeadlineRaisesTimeoutAfterNPolls := by
  intro s hz n hst hl hd hn hp
  obtain ⟨k, hk⟩ := Nat.exists_eq_add_of_le' hn
  have hpolls : s.polls + BitVec.ofNat 32 (k + 1) = n := by rw [hp, ← hk]; simp
  rw [hk, execTimes_add 1 (poll_run rfl hst hl hd hp k (by omega)),
    execTimes_rule (s := polled k s) 0 rfl (by rw [polled, hst]; decide) (ruleOf_sWaitLock hst),
    ruleWaitLock_polled_of_eq hl hd hp hk.symm, execTimes_zero, polled, hpolls]
  rfl

/-! ### Un-bypass, commit, post-lower, response (44 R156 to R161) -/

theorem rulePost_of_increase (h : s.inc = true) : rulePost s = succeed s := if_pos h

theorem rulePost_of_decrease (h : s.inc = false) :
    rulePost s = { s with vUv := s.opUv, vphase := .post, st := .sVQuant } := by
  rw [rulePost, if_neg (by rw [h]; decide)]

/-- Settles O15: the rules of the six states. -/
theorem unbypassCommitPostAndRespond : Obligations.UnbypassCommitPostAndRespond := by
  intro i s hi
  refine ⟨fun hst => ?unbypRead, fun hst => ?unbypWrite, fun hst => ?podfRead, fun hst w hw => ?podfWrite,
    fun hst hinc => ?lower, fun hst hinc => ?done, fun hst => ?respond⟩
  case unbypRead => exact exec_atState hi hst nofun (ruleOf_sUnbypRd hst)
  case unbypWrite => exact exec_atState hi hst nofun (ruleOf_sUnbypWr hst)
  case podfRead => exact exec_atState hi hst nofun (ruleOf_sPodfRd hst)
  case podfWrite => subst hw; exact exec_atState hi hst nofun (ruleOf_sPodfWr hst)
  case lower => exact exec_atState hi hst nofun ((ruleOf_sPost hst).trans (congrArg _ (rulePost_of_decrease hinc)))
  case done => exact exec_atState hi hst nofun ((ruleOf_sPost hst).trans (congrArg _ (rulePost_of_increase hinc)))
  case respond => exact exec_atState hi hst nofun (ruleOf_sRespond hst)

end Sys2Proof.Machine
end

section
/-! PROOF. DOC0's line (44 R162; 10_state.md R24): what a SETFREQ in flight does, state by state, as a step from `Macro`
to `Macro`. -/

namespace Sys2Proof.Machine

variable {s t : State} {a : Macro}

/-- The edges of R162. -/
def lineEdges : List (Macro × Macro) :=
  [(.idle, .lookupTarget), (.lookupTarget, .idle), (.lookupTarget, .voltageRaise), (.lookupTarget, .bypass),
    (.voltageRaise, .bypass), (.bypass, .waitLock), (.waitLock, .unbypass), (.waitLock, .idle),
    (.unbypass, .dividerCommit), (.dividerCommit, .voltageLower), (.voltageLower, .idle)]

/-- The edges of R162 that ask nothing of the step. -/
def unguardedEdges : List (Macro × Macro) :=
  [(.idle, .lookupTarget), (.lookupTarget, .idle), (.voltageRaise, .bypass), (.bypass, .waitLock),
    (.waitLock, .unbypass), (.unbypass, .dividerCommit), (.dividerCommit, .voltageLower), (.voltageLower, .idle)]

theorem mem_unguardedEdges {e : Macro × Macro} (h : e ∈ unguardedEdges) :
    e ∈ lineEdges ∧ e ≠ (.waitLock, .idle) ∧ e ≠ (.lookupTarget, .voltageRaise) ∧ e ≠ (.lookupTarget, .bypass) := by
  revert e; decide

/-- A step along the line: it stays, or takes an edge of R162, three of which have a guard. -/
inductive MacroStep (c : Params) (t : State) : Macro → Macro → Prop where
  | stay (a : Macro) : MacroStep c t a a
  | edge {a b : Macro} (h : (a, b) ∈ unguardedEdges) : MacroStep c t a b
  | raise (inc : t.inc = true) : MacroStep c t .lookupTarget .voltageRaise
  | bypass (inc : t.inc = false) : MacroStep c t .lookupTarget .bypass
  | timeout (deadline : c.lockDeadline ≠ none) (status : t.status = .hardwareTimeout) :
      MacroStep c t .waitLock .idle

/-- The edges as R162 lists them, with their guards. -/
theorem MacroStep.allowed {c : Params} {a b : Macro} (h : MacroStep c t a b) :
    (a = b ∨ (a, b) ∈ lineEdges) ∧
    ((a, b) = (.waitLock, .idle) → c.lockDeadline ≠ none ∧ t.status = .hardwareTimeout) ∧
    ((a, b) = (.lookupTarget, .voltageRaise) → t.inc = true) ∧
    ((a, b) = (.lookupTarget, .bypass) → t.inc = false) := by
  cases h with
  | stay => cases a <;> simp
  | edge h =>
    obtain ⟨hline, htimeout, hraise, hbypass⟩ := mem_unguardedEdges h
    exact ⟨.inr hline, (absurd · htimeout), (absurd · hraise), (absurd · hbypass)⟩
  | raise inc => exact ⟨.inr (by decide), nofun, fun _ => inc, nofun⟩
  | bypass inc => exact ⟨.inr (by decide), nofun, nofun, fun _ => inc⟩
  | timeout deadline status => exact ⟨.inr (by decide), fun _ => ⟨deadline, status⟩, nofun, nofun⟩

/-- Both states have a place on the line, and the step between these is allowed. -/
def FollowsLine (s t : State) : Prop := ∃ a b, macroOf s = some a ∧ macroOf t = some b ∧ MacroStep s.cfg t a b

theorem followsLine_stay (hs : macroOf s = some a) (ht : macroOf t = some a) : FollowsLine s t :=
  ⟨a, a, hs, ht, .stay a⟩

/-- The place on the line, read at a given state of the sequencer. -/
theorem macroOf_of_st {x : SeqState} {m : Option Macro} (hst : s.st = x) (h : macroOf { s with st := x } = m) :
    macroOf s = m := by
  subst hst; exact h

/-! ### Rule by rule -/

theorem followsLine_ruleEntry (hst : s.st = .sEntry) (hc : s.cmd = opSetfreq) : FollowsLine s (ruleEntry s) := by
  have hs : macroOf s = some .idle := macroOf_of_st hst rfl
  by_cases hf : s.family = s.cfg.fam0
  · rw [ruleEntry_of_tableCommand (.inl hc) hf]; exact ⟨_, _, hs, rfl, .edge (by decide)⟩
  · rw [ruleEntry_of_tableCommand_unsupported (.inl hc) hf]; exact followsLine_stay hs rfl

theorem followsLine_ruleLookup (hst : s.st = .sLookup) (hc : s.cmd = opSetfreq) (hf : s.family = s.cfg.fam0)
    (h : ruleLookup s = .next t) : FollowsLine s t := by
  have hs : macroOf s = some .lookupTarget := macroOf_of_st hst rfl
  rcases hrow : lookupRow s.cfg s.arg with _ | r
  · rw [ruleLookup_of_none hf hrow] at h; cases h
    exact ⟨_, _, hs, rfl, .edge (by decide)⟩
  · rw [ruleLookup_of_some hf hrow, lookupFound_of_setfreq (by rw [hc]; decide)] at h; cases h
    exact followsLine_stay hs rfl

theorem followsLine_ruleRdPodf (hst : s.st = .sRdPodf) (hc : s.cmd = opSetfreq) : FollowsLine s (ruleRdPodf s) := by
  have hs : macroOf s = some .lookupTarget := macroOf_of_st hst rfl
  rw [ruleRdPodf_of_setfreq hc]
  rcases lt_trichotomy (readPodf s).curHz.toNat (readPodf s).arg.toNat with h | h | h
  · rw [compareAndDirect_of_lt h]; exact ⟨_, _, hs, rfl, .raise rfl⟩
  · rw [compareAndDirect_of_eq (BitVec.eq_of_toNat_eq h)]; exact ⟨_, _, hs, rfl, .edge (by decide)⟩
  · rw [compareAndDirect_of_gt h]; exact ⟨_, _, hs, rfl, .bypass rfl⟩

theorem followsLine_ruleWaitLock (hst : s.st = .sWaitLock) : FollowsLine s (ruleWaitLock s) := by
  have hs : macroOf s = some .waitLock := macroOf_of_st hst rfl
  rcases hl : s.pllLock
  case true => rw [ruleWaitLock_of_locked hl]; exact ⟨_, _, hs, rfl, .edge (by decide)⟩
  rw [ruleWaitLock_of_unlocked hl]
  rcases hd : s.cfg.lockDeadline with _ | n
  · rw [pollFailed_of_unbounded (s := afterRead .pll s) hd]; exact followsLine_stay hs hs
  rcases Nat.lt_or_ge ((afterRead .pll s).polls + 1#32).toNat n.toNat with h | h
  · rw [pollFailed_of_lt (s := afterRead .pll s) hd h]; exact followsLine_stay hs hs
  · rw [pollFailed_of_le (s := afterRead .pll s) hd h]
    exact ⟨_, _, hs, rfl, .timeout (by simp [hd]) rfl⟩

theorem followsLine_rulePost (hst : s.st = .sPost) : FollowsLine s (rulePost s) := by
  have hs : macroOf s = some .voltageLower := macroOf_of_st hst rfl
  rcases hinc : s.inc
  · rw [rulePost_of_decrease hinc]; exact followsLine_stay hs rfl
  · rw [rulePost_of_increase hinc]; exact ⟨_, _, hs, rfl, .edge (by decide)⟩

/-! ### The controller -/

/-- The states of the controller (43 R122 to R128). -/
def inController (x : SeqState) : Bool :=
  [SeqState.sVQuant, .sVRdCur, .sVRmwRd, .sVRmwWr, .sVSettle, .sVDiag].contains x

/-- In the controller the place on the line is that of the phase (10_state.md R24). -/
theorem macroOf_inController (h : inController s.st = true) : macroOf s = macroOf.ofPhase s.vphase := by
  simp only [inController, List.contains_iff_mem, List.mem_cons, List.not_mem_nil, or_false] at h
  rcases h with h | h | h | h | h | h <;> exact macroOf_of_st h rfl

/-- The controller called by a SETFREQ raises first or lowers last. -/
theorem Calling.phase_of_setfreq (hc : Calling s) (hcmd : s.cmd = opSetfreq) :
    s.vphase = .pre ∨ s.vphase = .post := by
  obtain ⟨_, _, ⟨_, h, _⟩ | ⟨hp, _⟩ | ⟨hp, _⟩⟩ := hc
  · exact absurd (h.symm.trans hcmd) (by decide)
  · exact .inl hp
  · exact .inr hp

/-- A step inside a call stays in the call's place on the line. -/
theorem followsLine_inCall (hc : Calling s) (hcmd : s.cmd = opSetfreq) (hst : inController s.st = true)
    (hst' : inController t.st = true) (hv : t.vphase = s.vphase) : FollowsLine s t := by
  have hs := macroOf_inController hst
  have ht := hv ▸ macroOf_inController hst'
  rcases hc.phase_of_setfreq hcmd with hp | hp <;> rw [hp] at hs ht <;> exact followsLine_stay hs ht

/-- A call returns from the raise to the bypass, from the lowering to the response (43 R129). -/
theorem followsLine_vReturn (hc : Calling s) (hcmd : s.cmd = opSetfreq) (hst : inController s.st = true)
    (h : vReturn s = .next t) : FollowsLine s t := by
  have hs := macroOf_inController hst
  rcases hc.phase_of_setfreq hcmd with hp | hp <;> rw [hp] at hs
  · rw [vReturn_of_pre hp] at h; cases h; exact ⟨_, _, hs, rfl, .edge (by decide)⟩
  · rw [vReturn_of_last (.inl hp)] at h; cases h; exact ⟨_, _, hs, rfl, .edge (by decide)⟩

theorem followsLine_ruleVSettle (hst : s.st = .sVSettle) (hc : Calling s) (hcmd : s.cmd = opSetfreq) :
    FollowsLine s (ruleVSettle s) := by
  have hin : inController s.st = true := by rw [hst]; rfl
  by_cases hd : s.dly = 0#32
  · rw [ruleVSettle_of_zero hd]; exact followsLine_inCall hc hcmd hin rfl rfl
  · rw [ruleVSettle_of_ne hd]; exact followsLine_inCall hc hcmd hin hin rfl

theorem followsLine_ruleVRdCur (hst : s.st = .sVRdCur) (hc : Calling s) (hcmd : s.cmd = opSetfreq)
    (h : ruleVRdCur s = .next t) : FollowsLine s t := by
  have hin : inController s.st = true := by rw [hst]; rfl
  by_cases he : vcoreOf s.cfg s.vtarg = s.vCore
  · rw [ruleVRdCur_of_eq he] at h
    exact followsLine_vReturn (s := { afterRead .vtarg s with vOld := s.vCore }) hc hcmd hin h
  · rw [ruleVRdCur_of_ne he] at h; cases h
    exact followsLine_inCall hc hcmd hin rfl rfl

/-! ### Every step -/

/-- In a coherent state the rule of a SETFREQ in flight follows the line. -/
theorem followsLine_ruleOf (hp : PathInv s) (hf : s.st ≠ .sIdle) (hc : s.cmd = opSetfreq) (h : ruleOf s = .next t) :
    FollowsLine s t := by
  unfold PathInv at hp
  unfold ruleOf at h
  rcases hst : s.st <;> rw [hst] at hp h
  case sIdle => exact absurd hst hf
  case sEntry => cases h; exact followsLine_ruleEntry hst hc
  case sLookup => obtain ⟨_, _, _, hfam⟩ := hp; exact followsLine_ruleLookup hst hc hfam h
  case sRdPodf => cases h; exact followsLine_ruleRdPodf hst hc
  case sVQuant => cases h; exact followsLine_inCall hp hc (by rw [hst]; rfl) rfl rfl
  case sVRdCur => exact followsLine_ruleVRdCur hst hp.1 hc h
  case sVRmwRd | sVRmwWr => cases h; exact followsLine_inCall hp.1 hc (by rw [hst]; rfl) rfl rfl
  case sVSettle => cases h; exact followsLine_ruleVSettle hst hp.1 hc
  case sVDiag => exact followsLine_vReturn (s := emitDiag s) hp.1 hc (by rw [emitDiag_st, hst]; rfl) h
  case sWaitLock => cases h; exact followsLine_ruleWaitLock hst
  case sPost => cases h; exact followsLine_rulePost hst
  case sRdDiv | sBypsrcRd | sBypsrcWr | sBypsetRd | sBypsetWr | sDivselRd | sUnbypRd | sPodfRd | sRespond =>
    cases h; exact followsLine_stay (macroOf_of_st hst rfl) rfl
  case sDivselWr | sUnbypWr | sPodfWr => cases h; exact ⟨_, _, macroOf_of_st hst rfl, rfl, .edge (by decide)⟩

/-- Settles O58: each rule follows the line, whose edges and guards `MacroStep` has. -/
theorem macroStatesFollowTheLine : Obligations.MacroStatesFollowTheLine := by
  intro s t hi hmoves hf hc h
  rw [step_sequencer_inFlight hmoves hf] at h
  have hpath := (inv_setPorts hi s.sched.tail s.port s.rspOut s.railSettled).path
  obtain ⟨a, b, ha, hb, hstep⟩ := followsLine_ruleOf (s := { s with sched := s.sched.tail }) hpath hf.2 hc h
  exact ⟨a, b, ha, hb, hstep.allowed⟩

end Sys2Proof.Machine
end

section
/-! PROOF. What every run of a SETFREQ keeps, whatever it does: the coherence of the sequencer, the parameters, the
strap and the port, and every foreign bit (10_state.md R10, R19). -/

namespace Sys2Proof.Machine

variable {s t u : State} {hz : Word} {j n : Nat}

/-- The part of the coherence invariant that speaks of the sequencer and not of stand-alone micro-operations. -/
structure SequencerInv (s : State) : Prop where
  cfgWF : s.cfg.WF
  lockNotStored : pllStored s.cfg s.pll = s.pll
  path : PathInv s

/-- What a run leaves alone. -/
structure RunFrame (s t : State) : Prop where
  cfg : t.cfg = s.cfg
  family : t.family = s.family
  port : t.port = s.port
  foreign : ∀ j, ForeignBitKept j s t

theorem RunFrame.of_registersKept (hcfg : t.cfg = s.cfg) (hfamily : t.family = s.family) (hport : t.port = s.port)
    (hregs : RegistersKept s t) : RunFrame s t :=
  ⟨hcfg, hfamily, hport, foreignBitKept_of_registersKept hregs⟩

theorem RunFrame.refl (s : State) : RunFrame s s := .of_registersKept rfl rfl rfl ⟨rfl, rfl, rfl⟩

theorem ForeignBitKept.trans (hcfg : t.cfg = s.cfg) (h : ForeignBitKept j s t) (h' : ForeignBitKept j t u) :
    ForeignBitKept j s u := by
  obtain ⟨hp, hc, hv⟩ := h
  obtain ⟨hp', hc', hv'⟩ := h'
  rw [hcfg] at hp' hc' hv'
  exact ⟨fun hd hs hb => (hp' hd hs hb).trans (hp hd hs hb), fun hf => (hc' hf).trans (hc hf),
    fun h1 h2 => (hv' h1 h2).trans (hv h1 h2)⟩

theorem RunFrame.trans (h : RunFrame s t) (h' : RunFrame t u) : RunFrame s u :=
  ⟨h'.cfg.trans h.cfg, h'.family.trans h.family, h'.port.trans h.port,
    fun j => (h.foreign j).trans h.cfg (h'.foreign j)⟩

theorem runFrame_ruleOf (hi : SequencerInv s) (h : ruleOf s = .next t) : RunFrame s t := by
  obtain ⟨hcfg, hfamily, hport, _, _, _, _⟩ := ruleFrame_ruleOf h
  exact ⟨hcfg, hfamily, hport, foreignBitKept_rule hi.path h⟩

theorem sequencerInv_ruleOf (hi : SequencerInv s) (h : ruleOf s = .next t) : SequencerInv t := by
  obtain ⟨hcfg, _, _, _, _, _, hbus⟩ := ruleFrame_ruleOf h
  exact ⟨hcfg ▸ hi.cfgWF, hbus.lockNotStored hcfg hi.lockNotStored,
    pathInv_ruleOf hi.cfgWF hi.lockNotStored hi.path h⟩

/-- One step of a SETFREQ: acceptance, or the rule of its state. -/
theorem exec_setfreq_keeps (hi : SequencerInv s) (h : exec (.setfreq hz) s = .next t) :
    SequencerInv t ∧ RunFrame s t := by
  rw [exec_setfreq] at h
  by_cases hst : s.st = .sIdle
  · rw [commandStep_idle hst] at h; cases h
    exact ⟨⟨hi.cfgWF, hi.lockNotStored, rfl, ((pathInv_of_idle hst).1 hi.path).2⟩,
      .of_registersKept rfl rfl rfl ⟨rfl, rfl, rfl⟩⟩
  · rw [commandStep_busy hst] at h
    exact ⟨sequencerInv_ruleOf hi h, runFrame_ruleOf hi h⟩

/-- Any number of steps. -/
theorem execTimes_setfreq_keeps (hi : SequencerInv s) (h : execTimes (.setfreq hz) n s = .next t) :
    SequencerInv t ∧ RunFrame s t := by
  induction n generalizing s with
  | zero => cases h; exact ⟨hi, .refl _⟩
  | succ n ih =>
    rw [execTimes] at h
    rcases he : exec (.setfreq hz) s with u | f | r <;> rw [he] at h
    · obtain ⟨hu, hsu⟩ := exec_setfreq_keeps hi he
      obtain ⟨ht, hut⟩ := ih hu h
      exact ⟨ht, hsu.trans hut⟩
    · cases h
    · cases h

/-- The lock acquisition of the PLL (45 R173). -/
theorem pllLocks_keeps (hi : SequencerInv s) : SequencerInv (pllLocks s) ∧ RunFrame s (pllLocks s) :=
  ⟨⟨hi.cfgWF, hi.lockNotStored, pathInv_setLock (fun _ _ => rfl) hi.path⟩,
    .of_registersKept rfl rfl rfl ⟨rfl, rfl, rfl⟩⟩

end Sys2Proof.Machine
end

section
/-! PROOF. SETFREQ as a whole (44 R140, R163), leg by leg: to the direction check, a call of the controller, the
programming of the PLL up to the lock wait, the way from the lock to S_POST, and the response. Each leg ends in a state
written out, with the transactions it adds. -/

namespace Sys2Proof.Machine

variable {s t : State} {hz : Word} {r : Row}

/-! ### The transactions (44 R163) -/

theorem shapeOf_append (a b : List BusEvent) : shapeOf (a ++ b) = shapeOf a ++ shapeOf b := List.map_append

/-- The transactions of a call of the controller: one read if its code is programmed, and a read and a write more. -/
def callShape (c : Params) (vtarg uv : Word) : List (Bool × Word) :=
  (false, c.aVtarg) :: (if vcoreOf c vtarg = quant uv then [] else [(false, c.aVtarg), (true, c.aVtarg)])

/-- The transactions from S_BYPSRC_RD to the lock wait: three read-modify-writes of PLL. -/
def programShape (c : Params) : List (Bool × Word) :=
  [(false, c.aPll), (true, c.aPll), (false, c.aPll), (true, c.aPll), (false, c.aPll), (true, c.aPll)]

/-- The transactions from the poll that sees the lock to S_POST: the poll, the read-modify-writes of PLL and CDIV. -/
def commitShape (c : Params) : List (Bool × Word) :=
  [(false, c.aPll), (false, c.aPll), (true, c.aPll), (false, c.aCdiv), (true, c.aCdiv)]

/-! ### What a SETFREQ carries along -/

/-- The operating point and the direction, latched for the rest of the command, and the responses up to now. -/
structure Carried where
  opDiv : BitVec 7
  opPodf : BitVec 3
  opUv : Word
  inc : Bool
  rdata : Word
  rsp : List Response

/-- What a state carries. -/
def carried (s : State) : Carried := ⟨s.opDiv, s.opPodf, s.opUv, s.inc, s.rdata, s.rsp⟩

/-! ### To the direction check (44 R141 to R145) -/

/-- The reader's result, for an accepted SETFREQ whose row was found. -/
def targetRead (hz : Word) (r : Row) (s : State) : State :=
  readPodf (ruleRdDiv { latchRow r { accept opSetfreq hz s with st := .sLookup } with st := .sRdDiv })

theorem targetRead_curHz (wf : s.cfg.WF) (hz : Word) (r : Row) : (targetRead hz r s).curHz = fieldsHz s :=
  readPodf_curHz (s := ruleRdDiv { latchRow r { accept opSetfreq hz s with st := .sLookup } with st := .sRdDiv })
    (divOf_busValue wf)

theorem setfreq_run_read (hst : s.st = .sIdle) (hf : s.family = s.cfg.fam0) (hrow : lookupRow s.cfg hz = some r) :
    execTimes (.setfreq hz) 5 s = .next (compareAndDirect (targetRead hz r s)) := by
  rw [execTimes_succ 4 ((exec_setfreq hz s).trans (commandStep_idle hst opSetfreq hz)),
    execTimes_rule 3 rfl (by simp) (ruleOf_sEntry rfl),
    ruleEntry_of_tableCommand (s := accept opSetfreq hz s) (.inl rfl) hf,
    execTimes_rule 2 rfl (by simp) ((ruleOf_sLookup rfl).trans
      (ruleLookup_of_some (s := { accept opSetfreq hz s with st := .sLookup }) hf hrow)),
    lookupFound_of_setfreq (by simp [opSetfreq, opLookup]), execTimes_rule 1 rfl (by simp) (ruleOf_sRdDiv rfl),
    execTimes_rule 0 rfl (by simp [ruleRdDiv]) (ruleOf_sRdPodf rfl), ruleRdPodf_of_setfreq rfl]
  rfl

/-! ### A call of the controller (43 R122 to R129) -/

/-- Where a call stands when it returns to its caller: at once, or when it has written, waited and reported. -/
def callEnd (s : State) : State :=
  if vcoreOf s.cfg s.vtarg = quant s.vUv then { afterRead .vtarg (ruleVQuant s) with vOld := quant s.vUv }
  else emitDiag (callSettled s)

theorem call_run {i : Instr} (hi : isCommand i = true) (hst : s.st = .sVQuant) (hret : vReturn (callEnd s) = .next t) :
    ∃ n, execTimes i n s = .next t := by
  by_cases hcode : vcoreOf s.cfg s.vtarg = quant s.vUv
  · rw [callEnd, if_pos hcode] at hret
    exact ⟨2, controller_run_early hi hst hcode hret⟩
  · rw [callEnd, if_neg hcode] at hret
    exact ⟨_, (execTimes_add 1 (controller_run hi hst hcode)).trans
      (execTimes_rule 0 hi (by nofun) ((ruleOf_sVDiag rfl).trans hret))⟩

theorem callEnd_vphase (s : State) : (callEnd s).vphase = s.vphase := by
  unfold callEnd; split <;> rfl

theorem callEnd_carried (s : State) : carried (callEnd s) = carried s := by
  unfold callEnd; split <;> rfl

/-- A call touches neither the PLL nor the post-divider. -/
theorem callEnd_clocks (s : State) :
    (callEnd s).pll = s.pll ∧ (callEnd s).pllLock = s.pllLock ∧ (callEnd s).cdiv = s.cdiv := by
  unfold callEnd; split <;> exact ⟨rfl, rfl, rfl⟩

theorem vcoreOf_callEnd (wf : s.cfg.WF) : vcoreOf s.cfg (callEnd s).vtarg = quant s.vUv := by
  unfold callEnd
  split
  next h => exact h
  next => exact vcoreOf_withTargets wf _ _ _

theorem shapeOf_callEnd (s : State) : shapeOf (callEnd s).bus = shapeOf s.bus ++ callShape s.cfg s.vtarg s.vUv := by
  unfold callEnd callShape
  split
  · exact shapeOf_append _ _
  · simp [emitDiag, callSettled, shapeOf]

/-! ### To the lock wait (44 R148 to R153) -/

/-- The six PLL states before the lock wait, in order. -/
def pllProgrammed (s : State) : State :=
  ruleDivselWr (ruleDivselRd (ruleBypsetWr (ruleBypsetRd (ruleBypsrcWr (ruleBypsrcRd s)))))

theorem program_run {i : Instr} (hi : isCommand i = true) (hst : s.st = .sBypsrcRd) :
    execTimes i 6 s = .next (pllProgrammed s) := by
  rw [execTimes_rule 5 hi (by simp [hst]) (ruleOf_sBypsrcRd hst), execTimes_rule 4 hi (by nofun) (ruleOf_sBypsrcWr rfl),
    execTimes_rule 3 hi (by nofun) (ruleOf_sBypsetRd rfl), execTimes_rule 2 hi (by nofun) (ruleOf_sBypsetWr rfl),
    execTimes_rule 1 hi (by nofun) (ruleOf_sDivselRd rfl), execTimes_rule 0 hi (by nofun) (ruleOf_sDivselWr rfl)]
  rfl

theorem pllProgrammed_carried (s : State) : carried (pllProgrammed s) = carried s := by
  rw [pllProgrammed, ruleDivselWr_eq]; rfl

theorem pllProgrammed_cdiv (s : State) : (pllProgrammed s).cdiv = s.cdiv := by
  rw [pllProgrammed, ruleDivselWr_eq]; rfl

theorem pllProgrammed_vtarg (s : State) : (pllProgrammed s).vtarg = s.vtarg := by
  rw [pllProgrammed, ruleDivselWr_eq]; rfl

theorem shapeOf_pllProgrammed (s : State) : shapeOf (pllProgrammed s).bus = shapeOf s.bus ++ programShape s.cfg := by
  rw [pllProgrammed, ruleDivselWr_eq]
  simp [shapeOf, programShape, ruleBypsrcRd, ruleBypsrcWr, ruleBypsetRd, ruleBypsetWr, ruleDivselRd, addrOf]

/-! ### From the lock to S_POST (44 R154 to R159) -/

/-- The poll that sees the lock, and the four states after it. -/
def clockCommitted (s : State) : State :=
  rulePodfWr (rulePodfRd (ruleUnbypWr (ruleUnbypRd { afterRead .pll s with st := .sUnbypRd })))

theorem commit_run {i : Instr} (hi : isCommand i = true) (hst : s.st = .sWaitLock) (hl : s.pllLock = true) :
    execTimes i 5 s = .next (clockCommitted s) := by
  rw [execTimes_rule 4 hi (by simp [hst]) (ruleOf_sWaitLock hst), ruleWaitLock_of_locked hl,
    execTimes_rule 3 hi (by nofun) (ruleOf_sUnbypRd rfl), execTimes_rule 2 hi (by nofun) (ruleOf_sUnbypWr rfl),
    execTimes_rule 1 hi (by nofun) (ruleOf_sPodfRd rfl), execTimes_rule 0 hi (by nofun) (ruleOf_sPodfWr rfl)]
  rfl

theorem shapeOf_clockCommitted (s : State) : shapeOf (clockCommitted s).bus = shapeOf s.bus ++ commitShape s.cfg := by
  simp [shapeOf, commitShape, clockCommitted, ruleUnbypRd, ruleUnbypWr, rulePodfRd, rulePodfWr, addrOf]

/-- Clearing BYPASS keeps the divider, and so the lock (45 R172). -/
theorem clockCommitted_keeps_lock (wf : s.cfg.WF) (hl : s.pllLock = true) :
    divOf s.cfg (clockCommitted s).pll = divOf s.cfg s.pll ∧ (clockCommitted s).pllLock = true := by
  have hdiv : divOf s.cfg (clearBit (busValue .pll s) s.cfg.bypBit) = divOf s.cfg s.pll :=
    (divOf_clearByp wf _).trans (divOf_busValue wf)
  exact ⟨(divOf_pllStored wf _).trans hdiv, Bool.and_eq_true_iff.2 ⟨hl, decide_eq_true hdiv⟩⟩

theorem podfOf_clockCommitted (wf : s.cfg.WF) (hp : s.opPodf.setWidth 7 &&& s.cfg.podfMask = s.opPodf.setWidth 7) :
    podfOf s.cfg (clockCommitted s).cdiv = s.opPodf := podfOf_insertPodf wf _ _ hp

theorem clockCommitted_carried (s : State) : carried (clockCommitted s) = carried s := rfl

/-! ### To the response (44 R160, R161) -/

/-- The controller as S_POST calls it. -/
def lowerCall (s : State) : State := { s with vUv := s.opUv, vphase := .post, st := .sVQuant }

/-- A SETFREQ that S_POST has sent to its end, at once or through the controller. -/
def posted (s : State) : State :=
  if s.inc then succeed s else succeed { callEnd (lowerCall s) with vphase := .none }

theorem posted_run {i : Instr} (hi : isCommand i = true) (hst : s.st = .sPost) :
    ∃ n, execTimes i n s = .next (respond (posted s)) := by
  rcases hinc : s.inc
  case true =>
    refine ⟨2, ?_⟩
    rw [execTimes_rule 1 hi (by simp [hst]) (ruleOf_sPost hst), rulePost_of_increase hinc, execTimes_respond hi rfl,
      posted, if_pos hinc]
  case false =>
    obtain ⟨n, hcall⟩ := call_run hi (s := lowerCall s) rfl (vReturn_of_last (.inl (callEnd_vphase _)))
    refine ⟨n + 1 + 1, ?_⟩
    rw [execTimes_rule (n + 1) hi (by simp [hst]) (ruleOf_sPost hst), rulePost_of_decrease hinc]
    refine (execTimes_add 1 hcall).trans ((execTimes_respond hi rfl).trans ?_)
    rw [posted, if_neg (by rw [hinc]; decide)]

/-- The way from S_POST to the response touches neither the PLL nor the post-divider. -/
theorem posted_clocks (s : State) :
    (posted s).pll = s.pll ∧ (posted s).pllLock = s.pllLock ∧ (posted s).cdiv = s.cdiv := by
  unfold posted
  split
  · exact ⟨rfl, rfl, rfl⟩
  · exact callEnd_clocks (lowerCall s)

theorem posted_answer (s : State) :
    (posted s).status = .ok ∧ (posted s).rdata = s.rdata ∧ (posted s).rsp = s.rsp := by
  unfold posted
  split
  · exact ⟨rfl, rfl, rfl⟩
  · have h := callEnd_carried (lowerCall s)
    exact ⟨rfl, congrArg Carried.rdata h, congrArg Carried.rsp h⟩

/-- In the end the core-rail code is the operating point's, raised before or lowered now. -/
theorem vcoreOf_posted (wf : s.cfg.WF) (hc : Changing s) : vcoreOf s.cfg (posted s).vtarg = quant s.opUv := by
  obtain ⟨_, _, _, hraised⟩ := hc
  unfold posted
  split
  next h => exact hraised h
  next => exact vcoreOf_callEnd (s := lowerCall s) wf

theorem shapeOf_posted (s : State) :
    shapeOf (posted s).bus = shapeOf s.bus ++ (if s.inc then [] else callShape s.cfg s.vtarg s.opUv) := by
  unfold posted
  split
  · exact (List.append_nil _).symm
  · exact shapeOf_callEnd (lowerCall s)

/-! ### From rest to S_BYPSRC_RD (44 R141 to R147) -/

/-- A SETFREQ that will change the frequency can be accepted. -/
structure ReadyForChange (hz : Word) (r : Row) (s : State) : Prop where
  st : s.st = .sIdle
  inv : SequencerInv s
  family : s.family = s.cfg.fam0
  row : r ∈ s.cfg.table
  key : r.key = hz
  away : fieldsHz s ≠ hz

/-- The controller as the pre-raise of an increase calls it. -/
def raiseCall (hz : Word) (r : Row) (s : State) : State :=
  { targetRead hz r s with inc := true, vUv := r.uv, vphase := .pre, st := .sVQuant }

/-- Where the PLL's states begin, raised before or not. -/
def bypassEntered (hz : Word) (r : Row) (s : State) : State :=
  if (fieldsHz s).toNat < hz.toNat then { callEnd (raiseCall hz r s) with vphase := .none, st := .sBypsrcRd }
  else { targetRead hz r s with inc := false, st := .sBypsrcRd }

theorem bypassEntered_of_increase (h : (fieldsHz s).toNat < hz.toNat) :
    bypassEntered hz r s = { callEnd (raiseCall hz r s) with vphase := .none, st := .sBypsrcRd } := if_pos h

theorem bypassEntered_of_decrease (h : hz.toNat < (fieldsHz s).toNat) :
    bypassEntered hz r s = { targetRead hz r s with inc := false, st := .sBypsrcRd } := if_neg h.not_gt

theorem ReadyForChange.direction (h : ReadyForChange hz r s) :
    (fieldsHz s).toNat < hz.toNat ∨ hz.toNat < (fieldsHz s).toNat :=
  lt_or_gt_of_ne fun e => h.away (BitVec.eq_of_toNat_eq e)

theorem bypass_run (h : ReadyForChange hz r s) : ∃ n, execTimes (.setfreq hz) n s = .next (bypassEntered hz r s) := by
  have hread := setfreq_run_read h.st h.family (h.key ▸ lookupRow_of_mem h.inv.cfgWF h.row)
  have hcur : (targetRead hz r s).curHz = fieldsHz s := targetRead_curHz h.inv.cfgWF hz r
  rcases h.direction with hdir | hdir
  · rw [compareAndDirect_of_lt (s := targetRead hz r s) (by rw [hcur]; exact hdir)] at hread
    obtain ⟨n, hcall⟩ := call_run (i := .setfreq hz) rfl (s := raiseCall hz r s) rfl
      (vReturn_of_pre (callEnd_vphase _))
    rw [bypassEntered_of_increase hdir]
    exact ⟨5 + n, (execTimes_add n hread).trans hcall⟩
  · rw [compareAndDirect_of_gt (s := targetRead hz r s) (by rw [hcur]; exact hdir)] at hread
    rw [bypassEntered_of_decrease hdir]
    exact ⟨5, hread⟩

theorem bypassEntered_st (hz : Word) (r : Row) (s : State) : (bypassEntered hz r s).st = .sBypsrcRd := by
  unfold bypassEntered; split <;> rfl

theorem bypassEntered_carried (hz : Word) (r : Row) (s : State) :
    carried (bypassEntered hz r s) =
      ⟨r.div, r.podf, r.uv, decide ((fieldsHz s).toNat < hz.toNat), 0#32, s.rsp⟩ := by
  unfold bypassEntered
  split
  next h => rw [decide_eq_true h]; exact callEnd_carried (raiseCall hz r s)
  next h => rw [decide_eq_false h]; rfl

theorem bypassEntered_cdiv (hz : Word) (r : Row) (s : State) : (bypassEntered hz r s).cdiv = s.cdiv := by
  unfold bypassEntered
  split
  · obtain ⟨_, _, hcdiv⟩ := callEnd_clocks (raiseCall hz r s)
    exact hcdiv
  · rfl

theorem bypassEntered_vtarg_of_decrease (h : hz.toNat < (fieldsHz s).toNat) :
    (bypassEntered hz r s).vtarg = s.vtarg := by
  rw [bypassEntered_of_decrease h]; rfl

theorem shapeOf_targetRead (hz : Word) (r : Row) (s : State) :
    shapeOf (targetRead hz r s).bus = shapeOf s.bus ++ [(false, s.cfg.aPll), (false, s.cfg.aCdiv)] := by
  simp [shapeOf, targetRead, readPodf, ruleRdDiv, latchRow, addrOf]

theorem shapeOf_bypassEntered (hz : Word) (r : Row) (s : State) :
    shapeOf (bypassEntered hz r s).bus = shapeOf s.bus ++ [(false, s.cfg.aPll), (false, s.cfg.aCdiv)] ++
      (if (fieldsHz s).toNat < hz.toNat then callShape s.cfg s.vtarg r.uv else []) := by
  unfold bypassEntered
  split
  · refine (shapeOf_callEnd (raiseCall hz r s)).trans ?_
    exact congrArg (· ++ callShape s.cfg s.vtarg r.uv) (shapeOf_targetRead hz r s)
  · exact (shapeOf_targetRead hz r s).trans (List.append_nil _).symm

/-! ### The lock wait -/

/-- A SETFREQ that has programmed its divider and awaits the lock. -/
def lockAwaited (hz : Word) (r : Row) (s : State) : State := pllProgrammed (bypassEntered hz r s)

theorem lockAwaited_run (h : ReadyForChange hz r s) :
    ∃ n, execTimes (.setfreq hz) n s = .next (lockAwaited hz r s) := by
  obtain ⟨n, hrun⟩ := bypass_run h
  exact ⟨n + 6, (execTimes_add 6 hrun).trans (program_run rfl (bypassEntered_st hz r s))⟩

theorem lockAwaited_carried (hz : Word) (r : Row) (s : State) :
    carried (lockAwaited hz r s) = ⟨r.div, r.podf, r.uv, decide ((fieldsHz s).toNat < hz.toNat), 0#32, s.rsp⟩ :=
  (pllProgrammed_carried _).trans (bypassEntered_carried hz r s)

theorem lockAwaited_keeps (h : ReadyForChange hz r s) :
    SequencerInv (lockAwaited hz r s) ∧ RunFrame s (lockAwaited hz r s) := by
  obtain ⟨n, hrun⟩ := lockAwaited_run h
  exact execTimes_setfreq_keeps h.inv hrun

theorem shapeOf_lockAwaited (h : ReadyForChange hz r s) :
    shapeOf (lockAwaited hz r s).bus = shapeOf s.bus ++ [(false, s.cfg.aPll), (false, s.cfg.aCdiv)] ++
      (if (fieldsHz s).toNat < hz.toNat then callShape s.cfg s.vtarg r.uv else []) ++ programShape s.cfg := by
  obtain ⟨n, hrun⟩ := bypass_run h
  obtain ⟨_, hframe⟩ := execTimes_setfreq_keeps h.inv hrun
  rw [lockAwaited, shapeOf_pllProgrammed, shapeOf_bypassEntered, hframe.cfg]

theorem lockAwaited_insulated (h : ReadyForChange hz r s) :
    Changing (lockAwaited hz r s) ∧ Insulated (lockAwaited hz r s) ∧
      divOf (lockAwaited hz r s).cfg (lockAwaited hz r s).pll = r.div := by
  obtain ⟨hinv, _⟩ := lockAwaited_keeps h
  obtain ⟨hc, hins, hdiv⟩ : Changing _ ∧ Insulated _ ∧ DividerSet _ := hinv.path
  exact ⟨hc, hins, hdiv.trans (congrArg Carried.opDiv (lockAwaited_carried hz r s))⟩

theorem lockAwaited_cdiv (hz : Word) (r : Row) (s : State) : (lockAwaited hz r s).cdiv = s.cdiv :=
  (pllProgrammed_cdiv _).trans (bypassEntered_cdiv hz r s)

theorem lockAwaited_vtarg_of_decrease (h : hz.toNat < (fieldsHz s).toNat) : (lockAwaited hz r s).vtarg = s.vtarg :=
  (pllProgrammed_vtarg _).trans (bypassEntered_vtarg_of_decrease h)

/-- For an increase the core-rail target is the operating point's before the PLL is touched (70 R225). -/
theorem lockAwaited_raised (h : ReadyForChange hz r s) (hinc : (fieldsHz s).toNat < hz.toNat) :
    vcoreOf (lockAwaited hz r s).cfg (lockAwaited hz r s).vtarg = quant r.uv := by
  obtain ⟨⟨_, _, _, hraised⟩, _⟩ := lockAwaited_insulated h
  have hcarried := lockAwaited_carried hz r s
  have huv : (lockAwaited hz r s).opUv = r.uv := congrArg Carried.opUv hcarried
  rw [hraised ((congrArg Carried.inc hcarried).trans (decide_eq_true hinc)), huv]

/-! ### Once the PLL has locked (45 R173) -/

/-- A run from the lock on keeps what the run to it kept. -/
theorem fromLock_keeps {m : Nat} (h : ReadyForChange hz r s)
    (hrun : execTimes (.setfreq hz) m (pllLocks (lockAwaited hz r s)) = .next t) : SequencerInv t ∧ RunFrame s t := by
  obtain ⟨hw, hwait⟩ := lockAwaited_keeps h
  obtain ⟨hlocked, hlock⟩ := pllLocks_keeps hw
  obtain ⟨ht, hon⟩ := execTimes_setfreq_keeps hlocked hrun
  exact ⟨ht, (hwait.trans hlock).trans hon⟩

/-- The PLL has locked, and the SETFREQ has committed its clock. -/
def arrivedAt (hz : Word) (r : Row) (s : State) : State := clockCommitted (pllLocks (lockAwaited hz r s))

theorem arrivedAt_run (hz : Word) (r : Row) (s : State) :
    execTimes (.setfreq hz) 5 (pllLocks (lockAwaited hz r s)) = .next (arrivedAt hz r s) := commit_run rfl rfl rfl

theorem arrivedAt_keeps (h : ReadyForChange hz r s) :
    SequencerInv (arrivedAt hz r s) ∧ RunFrame s (arrivedAt hz r s) := fromLock_keeps h (arrivedAt_run hz r s)

theorem arrivedAt_path (h : ReadyForChange hz r s) : Changing (arrivedAt hz r s) ∧ Arrived (arrivedAt hz r s) := by
  obtain ⟨hp, _⟩ := arrivedAt_keeps h
  exact hp.path

theorem arrivedAt_carried (hz : Word) (r : Row) (s : State) :
    carried (arrivedAt hz r s) = ⟨r.div, r.podf, r.uv, decide ((fieldsHz s).toNat < hz.toNat), 0#32, s.rsp⟩ :=
  (clockCommitted_carried _).trans (lockAwaited_carried hz r s)

/-- Both dividers are the operating point's, and the PLL is locked. -/
theorem arrivedAt_dividers (h : ReadyForChange hz r s) :
    divOf s.cfg (arrivedAt hz r s).pll = r.div ∧ podfOf s.cfg (arrivedAt hz r s).cdiv = r.podf ∧
      (arrivedAt hz r s).pllLock = true := by
  obtain ⟨hw, hframe⟩ := lockAwaited_keeps h
  obtain ⟨hc, _, hdiv⟩ := lockAwaited_insulated h
  obtain ⟨hkept, hlock⟩ := clockCommitted_keeps_lock (s := pllLocks (lockAwaited hz r s)) hw.cfgWF rfl
  have hpodf := podfOf_clockCommitted (s := pllLocks (lockAwaited hz r s)) hw.cfgWF (hc.resolved.opPodf_fits hw.cfgWF)
  rw [← hframe.cfg]
  exact ⟨hkept.trans hdiv, hpodf.trans (congrArg Carried.opPodf (lockAwaited_carried hz r s)), hlock⟩

theorem shapeOf_arrivedAt (h : ReadyForChange hz r s) :
    shapeOf (arrivedAt hz r s).bus = shapeOf s.bus ++ [(false, s.cfg.aPll), (false, s.cfg.aCdiv)] ++
      (if (fieldsHz s).toNat < hz.toNat then callShape s.cfg s.vtarg r.uv else []) ++
      (programShape s.cfg ++ commitShape s.cfg) := by
  obtain ⟨_, hframe⟩ := lockAwaited_keeps h
  rw [arrivedAt, shapeOf_clockCommitted, ← List.append_assoc, ← shapeOf_lockAwaited h, ← hframe.cfg]
  rfl

/-- Where a frequency change ends. -/
def completed (hz : Word) (r : Row) (s : State) : State := respond (posted (arrivedAt hz r s))

theorem completed_run (hz : Word) (r : Row) (s : State) :
    ∃ m, execTimes (.setfreq hz) m (pllLocks (lockAwaited hz r s)) = .next (completed hz r s) := by
  obtain ⟨n, hrun⟩ := posted_run (i := .setfreq hz) rfl (s := arrivedAt hz r s) rfl
  exact ⟨5 + n, (execTimes_add n (arrivedAt_run hz r s)).trans hrun⟩

theorem completed_keeps (h : ReadyForChange hz r s) :
    SequencerInv (completed hz r s) ∧ RunFrame s (completed hz r s) := by
  obtain ⟨m, hrun⟩ := completed_run hz r s
  exact fromLock_keeps h hrun

theorem completed_rsp (hz : Word) (r : Row) (s : State) : (completed hz r s).rsp = s.rsp ++ [⟨.ok, 0#32⟩] := by
  obtain ⟨hstatus, hrdata, hrsp⟩ := posted_answer (arrivedAt hz r s)
  have hcarried := arrivedAt_carried hz r s
  rw [completed, respond_rsp, hstatus, hrdata, hrsp]
  exact congrArg₂ (fun a d => a ++ [⟨.ok, d⟩]) (congrArg Carried.rsp hcarried) (congrArg Carried.rdata hcarried)

/-- The clock has arrived: un-bypassed, from the oscillator, locked, both dividers the operating point's. -/
theorem completed_clock (h : ReadyForChange hz r s) :
    bypOf s.cfg (completed hz r s).pll = false ∧ srcOf s.cfg (completed hz r s).pll = s.cfg.srcOsc ∧
      (completed hz r s).pllLock = true ∧ divOf s.cfg (completed hz r s).pll = r.div ∧
      podfOf s.cfg (completed hz r s).cdiv = r.podf := by
  obtain ⟨hpll, hlock, hcdiv⟩ := posted_clocks (arrivedAt hz r s)
  obtain ⟨_, hbyp, hsrc, _⟩ := arrivedAt_path h
  obtain ⟨hdiv, hpodf, hlocked⟩ := arrivedAt_dividers h
  obtain ⟨_, hframe⟩ := arrivedAt_keeps h
  rw [hframe.cfg] at hbyp hsrc
  simp only [completed, respond_pll, respond_pllLock, respond_cdiv, hpll, hlock, hcdiv]
  exact ⟨hbyp, hsrc, hlocked, hdiv, hpodf⟩

theorem vcoreOf_completed (h : ReadyForChange hz r s) : vcoreOf s.cfg (completed hz r s).vtarg = quant r.uv := by
  obtain ⟨hp, hframe⟩ := arrivedAt_keeps h
  have hcode := vcoreOf_posted hp.cfgWF (arrivedAt_path h).1
  rw [hframe.cfg] at hcode
  exact hcode.trans (congrArg quant (congrArg Carried.opUv (arrivedAt_carried hz r s)))

/-- What S_POST adds: nothing for an increase, a call of the controller for a decrease. -/
theorem shapeOf_completed (h : ReadyForChange hz r s) :
    shapeOf (completed hz r s).bus = shapeOf (arrivedAt hz r s).bus ++
      (if hz.toNat < (fieldsHz s).toNat then callShape s.cfg s.vtarg r.uv else []) := by
  obtain ⟨_, hframe⟩ := arrivedAt_keeps h
  have hcarried := arrivedAt_carried hz r s
  have huv : (arrivedAt hz r s).opUv = r.uv := congrArg Carried.opUv hcarried
  have hinc : (arrivedAt hz r s).inc = decide ((fieldsHz s).toNat < hz.toNat) := congrArg Carried.inc hcarried
  rw [completed, respond_bus, shapeOf_posted, hframe.cfg, huv, hinc]
  rcases h.direction with hdir | hdir
  · simp [hdir, hdir.not_gt]
  · have hvtarg : (arrivedAt hz r s).vtarg = s.vtarg := lockAwaited_vtarg_of_decrease hdir
    simp [hdir, hdir.not_gt, hvtarg]

/-- Settles O20: the run to the lock wait, and the run from the lock to the response, with what each leaves behind. -/
theorem setfreqCompletesOnceLocked : Obligations.SetfreqCompletesOnceLocked := by
  intro s hz hst hcmd hv wf hl hf r hr hk hne call hcall
  subst hcall
  have h : ReadyForChange hz r s := ⟨hst, ⟨wf, hl, (pathInv_of_idle hst).2 ⟨hcmd, hv⟩⟩, hf, hr, hk, hne⟩
  obtain ⟨n, hwait⟩ := lockAwaited_run h
  obtain ⟨m, hdone⟩ := completed_run hz r s
  obtain ⟨_, hins, hdivider⟩ := lockAwaited_insulated h
  obtain ⟨hidle, hframe⟩ := completed_keeps h
  obtain ⟨hcmd', hv'⟩ := (pathInv_of_idle rfl).1 hidle.path
  obtain ⟨hbyp, hsrc, hlock, hdiv, hpodf⟩ := completed_clock h
  have hhz : fieldsHz (completed hz r s) = hz := by
    rw [fieldsHz, hframe.cfg, hdiv, hpodf, wf.rowFreq r hr, hk]
  refine ⟨n, lockAwaited hz r s, hwait, rfl, hins, hdivider, lockAwaited_cdiv hz r s,
    congrArg Carried.rsp (lockAwaited_carried hz r s), lockAwaited_raised h, lockAwaited_vtarg_of_decrease,
    m, completed hz r s, hdone, rfl, hcmd', hv', completed_rsp hz r s, hlock, ?_⟩
  rw [hframe.cfg]
  refine ⟨hbyp, hsrc, hdiv, hpodf, hhz, vcoreOf_completed h, rfl, hframe.family, hframe.port, ?_, ?_, ?_, ?_⟩
  · intro j; obtain ⟨hpll, _, _⟩ := hframe.foreign j; exact hpll
  · intro j; obtain ⟨_, hcdiv, _⟩ := hframe.foreign j; exact hcdiv
  · intro j; obtain ⟨_, _, hvtarg⟩ := hframe.foreign j; exact hvtarg
  · rw [shapeOf_completed h, shapeOf_arrivedAt h]; rfl

end Sys2Proof.Machine
end

section
/-! PROOF. The three registers on the bus (45 R171, R172, R177, R178; 20_memory.md R51): what a read shows and what a
write stores, with the lock and the rails. -/

namespace Sys2Proof.Machine

variable {s : State} {w : Word}

/-- A PLL read shows `pll_lock` in bit LOCK and the stored bits elsewhere. -/
theorem busValue_pll_getLsbD_eq_ite (s : State) (j : Nat) :
    (busValue .pll s).getLsbD j = if j = s.cfg.lockBit.toNat then s.pllLock else s.pll.getLsbD j := by
  split_ifs with hj
  · rw [hj]; exact lockSeen_busValue s
  · exact busValue_pll_getLsbD hj

/-- Bit LOCK of a written word is ignored, every other bit is stored (20_memory.md R51). -/
theorem pllStored_getLsbD {c : Params} {j : Nat} (hj : j ≠ c.lockBit.toNat) :
    (pllStored c w).getLsbD j = w.getLsbD j := by
  simp [pllStored, clearBit_getLsbD, hj]

/-- Settles O34: the bits by the laws of bit LOCK, the rest by what a PLL write does to each field of the state. -/
theorem pllReadsLockAndWritesDropIt : Obligations.PllReadsLockAndWritesDropIt := by
  intro s w _
  refine ⟨fun j _ => busValue_pll_getLsbD_eq_ite s j, fun j hj => pllStored_getLsbD hj, fun hne => ?changed,
    fun heq => ?kept, rfl, rfl, rfl, rfl⟩
  case changed => simp [hne]
  case kept => simp [heq]

/-- A VTARG write that changes a target starts a ramp (R178). -/
theorem memWrite_vtarg_of_ne (h : vcoreOf s.cfg w ≠ vcoreOf s.cfg s.vtarg ∨ vsocOf s.cfg w ≠ vsocOf s.cfg s.vtarg) :
    memWrite .vtarg w s = { s with vtarg := w, railSettled := false, bus := s.bus ++ [.wr s.cfg.aVtarg w] } := by
  rw [memWrite, storeReg, decide_eq_false (fun ⟨hcore, hsoc⟩ => h.elim (· hcore) (· hsoc)), Bool.and_false]; rfl

/-- A VTARG write that changes neither target leaves the rails alone (R178). -/
theorem memWrite_vtarg_of_eq (h : vcoreOf s.cfg w = vcoreOf s.cfg s.vtarg ∧ vsocOf s.cfg w = vsocOf s.cfg s.vtarg) :
    memWrite .vtarg w s = { s with vtarg := w, bus := s.bus ++ [.wr s.cfg.aVtarg w] } := by
  rw [memWrite, storeReg, decide_eq_true h, Bool.and_true]; rfl

/-- Settles O35: reads and the CDIV write by computation, the VTARG write in its two cases. -/
theorem cdivAndVtargStoreWhatIsWritten : Obligations.CdivAndVtargStoreWhatIsWritten := fun _ _ =>
  ⟨rfl, rfl, rfl, memWrite_vtarg_of_ne, memWrite_vtarg_of_eq⟩

end Sys2Proof.Machine
end

section
/-! PROOF. The two hidden bits, `pll_lock` and `rail_settled` (10_state.md R20; 45 R172 to R174, R178 to R180): a bus
transaction can only clear them, and does so exactly when it changes DIV_SELECT or a target; only the agent that owns a
bit sets it. -/

namespace Sys2Proof.Machine

variable {s t : State}

/-- Both voltage targets are the same in the two states. -/
def TargetsKept (s t : State) : Prop :=
  vcoreOf s.cfg t.vtarg = vcoreOf s.cfg s.vtarg ∧ vsocOf s.cfg t.vtarg = vsocOf s.cfg s.vtarg

theorem targetsKept_of_vtarg_eq (h : t.vtarg = s.vtarg) : TargetsKept s t := ⟨by rw [h], by rw [h]⟩

/-! ### A bus transaction -/

/-- A transaction that leaves VTARG and the rails' bit alone. -/
theorem railSettled_iff_of_eq (hv : t.vtarg = s.vtarg) (hr : t.railSettled = s.railSettled) :
    t.railSettled = true ↔ s.railSettled = true ∧ TargetsKept s t := by
  simp [hr, targetsKept_of_vtarg_eq hv]

/-- After a transaction the rails are settled exactly if they were and no target changed (R178). -/
theorem BusStep.railSettled_iff (h : BusStep s t) :
    t.railSettled = true ↔ s.railSettled = true ∧ TargetsKept s t := by
  cases h with
  | quiet _ _ _ _ vtarg rail => exact railSettled_iff_of_eq vtarg rail
  | read _ _ _ _ _ vtarg rail => exact railSettled_iff_of_eq vtarg rail
  | write r w _ _ _ _ vtarg rail =>
    cases r with
    | pll | cdiv => exact railSettled_iff_of_eq vtarg rail
    | vtarg => simp [rail, vtarg, TargetsKept]

/-- After a transaction the PLL is locked exactly if it was and DIV_SELECT did not change (R172). -/
theorem BusStep.pllLock_iff (wf : s.cfg.WF) (h : BusStep s t) :
    t.pllLock = true ↔ s.pllLock = true ∧ divOf s.cfg t.pll = divOf s.cfg s.pll := by
  cases h with
  | quiet _ pll lock => simp [lock, pll]
  | read _ _ pll lock => simp [lock, pll]
  | write r w _ pll lock =>
    cases r with
    | pll => simp [lock, pll, divOf_pllStored wf]
    | cdiv | vtarg => simp [lock, pll]

/-! ### A step -/

/-- What a step does to the rails' bit: the regulator sets it, or the step is a transaction's at most. -/
theorem step_railSettled (h : step s = .next t) :
    (t.railSettled = true ∧ ∃ rest, s.sched = .railsSettle :: rest) ∨
      (t.railSettled = true ↔ s.railSettled = true ∧ TargetsKept s t) := by
  cases step_cases h with
  | sequencer _ turn => exact .inr (busStep_turn turn).railSettled_iff
  | settle rest sched e => subst e; exact .inl ⟨rfl, rest, sched⟩
  | present _ _ _ e | consume _ _ e | lock _ _ e | drop _ _ e | reset _ _ _ _ e =>
    subst e; exact .inr (railSettled_iff_of_eq rfl rfl)

/-- What a step does to the lock: the PLL takes it or, if it may, drops it, or the step is a transaction's at most. -/
theorem step_pllLock (wf : s.cfg.WF) (h : step s = .next t) :
    (t.pllLock = true ∧ ∃ rest, s.sched = .pllLocks :: rest) ∨
    (t.pllLock = false ∧ s.cfg.pllMayDropLock = true ∧ ∃ rest, s.sched = .pllDropsLock :: rest) ∨
      (t.pllLock = true ↔ s.pllLock = true ∧ divOf s.cfg t.pll = divOf s.cfg s.pll) := by
  cases step_cases h with
  | sequencer _ turn =>
    exact .inr (.inr (BusStep.pllLock_iff (s := { s with sched := s.sched.tail }) wf (busStep_turn turn)))
  | lock rest sched e => subst e; exact .inl ⟨rfl, rest, sched⟩
  | drop rest sched e =>
    subst e
    cases hm : s.cfg.pllMayDropLock with
    | true => exact .inr (.inl ⟨by simp, rfl, rest, sched⟩)
    | false => exact .inr (.inr (by simp))
  | present _ _ _ e | consume _ _ e | settle _ _ e | reset _ _ _ _ e =>
    subst e; exact .inr (.inr (by simp [resetEvent]))

/-- Settles O36: by the three cases of `step_pllLock`. -/
theorem lockChangesOnlyAsThePllDoes : Obligations.LockChangesOnlyAsThePllDoes := by
  intro s t wf h
  rcases step_pllLock wf h with ⟨hlocked, hmove⟩ | ⟨hdropped, hmove⟩ | hiff
  · exact ⟨fun _ hlost => absurd (hlocked.symm.trans hlost) nofun, fun _ _ => hmove⟩
  · exact ⟨fun _ _ => .inr hmove, fun _ hgained => absurd (hdropped.symm.trans hgained) nofun⟩
  · refine ⟨fun hs hlost => .inl fun hdiv => ?lost, fun hs hgained => ?gained⟩
    case lost => exact absurd ((hiff.2 ⟨hs, hdiv⟩).symm.trans hlost) nofun
    case gained =>
      obtain ⟨hbefore, _⟩ := hiff.1 hgained
      exact absurd (hbefore.symm.trans hs) nofun

/-- Settles O37: by the two cases of `step_railSettled`. -/
theorem railsChangeOnlyAsTheRegulatorDoes : Obligations.RailsChangeOnlyAsTheRegulatorDoes := by
  intro s t h
  rcases step_railSettled h with ⟨hsettled, hmove⟩ | hiff
  · exact ⟨fun _ hlost => absurd (hsettled.symm.trans hlost) nofun, fun _ _ => hmove⟩
  · refine ⟨fun hs hlost => not_and_or.1 fun hkept => ?lost, fun hs hgained => ?gained⟩
    case lost => exact absurd ((hiff.2 ⟨hs, hkept⟩).symm.trans hlost) nofun
    case gained =>
      obtain ⟨hbefore, _⟩ := hiff.1 hgained
      exact absurd (hbefore.symm.trans hs) nofun

/-! ### A command in flight (R180) -/

/-- Of a command's rules only S_V_RMW_WR changes VTARG. -/
theorem vtarg_of_ruleOf (hst : s.st ≠ .sVRmwWr) (h : ruleOf s = .next t) : t.vtarg = s.vtarg := by
  cases ruleWrite_ruleOf h with
  | kept regs => obtain ⟨_, _, hv⟩ := regs; exact hv
  | divider _ e =>
    obtain ⟨_, _, hv⟩ := registersKept_startPolls
      (memWrite .pll (insertField s.tmp s.cfg.divOff s.cfg.divMask s.opDiv) s)
    subst e; exact hv
  | source _ e | bypass _ e | unbypass _ e | podf _ e => subst e; rfl
  | targets st _ => exact absurd st hst

/-- Outside S_V_RMW_WR settled rails stay settled while a command is in flight. -/
theorem railSettled_of_inFlight (hf : CommandInFlight s) (hst : s.st ≠ .sVRmwWr) (hs : s.railSettled = true)
    (h : step s = .next t) : t.railSettled = true := by
  have hv : t.vtarg = s.vtarg := by
    rcases step_inFlight_cases hf h with hr | ⟨_, _, hv⟩
    · exact vtarg_of_ruleOf (s := { s with sched := s.sched.tail }) hst hr
    · exact hv
  rcases step_railSettled h with ⟨hsettled, _⟩ | hiff
  · exact hsettled
  · exact hiff.2 ⟨hs, targetsKept_of_vtarg_eq hv⟩

/-- Another agent's move does not move a command in flight. -/
theorem st_of_not_sequencerMoves (hst : s.st ≠ .sIdle) (hm : ¬ SequencerMoves s) (h : step s = .next t) :
    t.st = s.st := by
  cases step_cases h with
  | sequencer moves _ => exact absurd moves hm
  | reset _ _ st => exact absurd st hst
  | present _ _ _ e | consume _ _ e | lock _ _ e | drop _ _ e | settle _ _ e => subst e; rfl

/-- The controller leaves the settle loop in the step that finds `DLY` at 0 (43 R127). -/
theorem dly_eq_zero_of_leaves_settle (hf : CommandInFlight s) (hst : s.st = .sVSettle) (ht : t.st = .sVDiag)
    (h : step s = .next t) : s.dly = 0#32 := by
  by_contra hd
  have hstay : t.st = s.st := by
    by_cases hm : SequencerMoves s
    · rw [step_sequencer_inFlight hm hf, ruleOf_sVSettle (s := { s with sched := s.sched.tail }) hst,
        ruleVSettle_of_ne (s := { s with sched := s.sched.tail }) hd] at h
      cases h; rfl
    · exact st_of_not_sequencerMoves hf.2 hm h
  exact absurd (ht.symm.trans (hstay.trans hst)) nofun

/-- Settles O60: the premise speaks of the step that leaves the settle loop, and no state of the list is S_V_RMW_WR. -/
theorem settledRailsStaySettledThroughPllWrites : Obligations.SettledRailsStaySettledThroughPllWrites := by
  intro s t hsuff hf h
  refine ⟨fun hst ht => ?report, fun hs hmem => ?through⟩
  case report =>
    have hsettled : s.railSettled = true := hsuff hst (dly_eq_zero_of_leaves_settle hf hst ht h)
    exact railSettled_of_inFlight hf (by rw [hst]; decide) hsettled h
  case through =>
    have hst : s.st ≠ .sVRmwWr := fun e => absurd (e ▸ hmem) (by decide)
    exact railSettled_of_inFlight hf hst hs h

end Sys2Proof.Machine
end

section
/-! PROOF. VoltageCodes (45 R181) and the clock outputs (45 R175, R176). -/

namespace Sys2Proof.Machine

variable {s : State} {c : BitVec 5}

/-! ### VoltageCodes -/

theorem railTarget_of_linear (hlo : 1 ≤ c.toNat) (hhi : c.toNat ≤ 30) :
    railTarget c = .microvolts (700000 + 25000 * c.toNat) := by
  have hend : ¬ (c = 0#5 ∨ c = 31#5) := by
    rintro (rfl | rfl)
    · exact absurd hlo (by decide)
    · exact absurd hhi (by decide)
  exact if_neg hend

/-- The voltage a code stands for quantises to the code (43 R121). -/
theorem quant_of_linear (hlo : 1 ≤ c.toNat) (hhi : c.toNat ≤ 30) :
    quant (BitVec.ofNat 32 (700000 + 25000 * c.toNat)) = c := by
  have hword : (BitVec.ofNat 32 (700000 + 25000 * c.toNat)).toNat = 700000 + 25000 * c.toNat := by
    rw [BitVec.toNat_ofNat]; omega
  apply BitVec.eq_of_toNat_eq
  rw [quant_toNat, hword, if_neg (by omega), if_neg (by omega)]
  omega

/-- Settles O41: the linear range by the two lemmas above; the table's voltages rise with its keys (41 R105), and the
quantiser is monotone. -/
theorem voltageCodesInvertAndFollowFrequency : Obligations.VoltageCodesInvertAndFollowFrequency :=
  ⟨fun _ hlo hhi => ⟨railTarget_of_linear hlo hhi, quant_of_linear hlo hhi⟩, rfl, rfl,
    fun _ a b wf ha hb hkey => quant_monotone (wf.rowsMonotone a ha b hb hkey)⟩

/-! ### The clock outputs -/

theorem fPllout_of_oscillator (hb : bypOf s.cfg s.pll = true) (hsrc : srcOf s.cfg s.pll = s.cfg.srcOsc) :
    fPllout s = .hz 24000000 := by
  rw [fPllout, if_pos hb, if_pos hsrc, Config.oscHz]

theorem fPllout_of_otherSource (hb : bypOf s.cfg s.pll = true) (hsrc : srcOf s.cfg s.pll ≠ s.cfg.srcOsc) :
    fPllout s = .unknown := by
  rw [fPllout, if_pos hb, if_neg hsrc]

theorem fPllout_of_locked (hb : bypOf s.cfg s.pll = false) (hl : s.pllLock = true) :
    fPllout s = .hz (24000000 * (divOf s.cfg s.pll).toNat / 2) := by
  rw [fPllout, if_neg (by simp [hb]), if_pos hl, Config.oscHz]

theorem fPllout_of_unlocked (hb : bypOf s.cfg s.pll = false) (hl : s.pllLock = false) : fPllout s = .unstable := by
  rw [fPllout, if_neg (by simp [hb]), if_neg (by simp [hl])]

/-- The core clock is the PLL's output divided by PODF + 1 (R176). -/
theorem fCore_of_hz {n : Nat} (h : fPllout s = .hz n) :
    fCore s = .hz (n / ((podfOf s.cfg s.cdiv).toNat + 1)) := by rw [fCore, h]

theorem fCore_of_unknown (h : fPllout s = .unknown) : fCore s = .unknown := by rw [fCore, h]

theorem fCore_of_unstable (h : fPllout s = .unstable) : fCore s = .unstable := by rw [fCore, h]

/-- No 7-bit divider overflows the frequency, so the reader's word is the locked core clock (42 R112). -/
theorem fCore_of_locked (hb : bypOf s.cfg s.pll = false) (hl : s.pllLock = true) :
    fCore s = .hz (fieldsHz s).toNat := by
  have hdiv := (divOf s.cfg s.pll).isLt
  rw [fCore_of_hz (fPllout_of_locked hb hl), fieldsHz, freq_toNat _ (by rw [Config.oscHz]; omega), Config.oscHz]

/-- Settles O43: the four cases of `fPllout`, each with its core clock. -/
theorem clockOutputs : Obligations.ClockOutputs := by
  intro s
  refine ⟨fun hb hsrc => ?oscillator, fun hb hsrc => ?other, fun hb hl => ?locked, fun hb hl => ?unlocked⟩
  case oscillator => exact ⟨fPllout_of_oscillator hb hsrc, fCore_of_hz (fPllout_of_oscillator hb hsrc)⟩
  case other => exact ⟨fPllout_of_otherSource hb hsrc, fCore_of_unknown (fPllout_of_otherSource hb hsrc)⟩
  case locked => exact ⟨fPllout_of_locked hb hl, fCore_of_locked hb hl⟩
  case unlocked => exact ⟨fPllout_of_unlocked hb hl, fCore_of_unstable (fPllout_of_unlocked hb hl)⟩

end Sys2Proof.Machine
end

section
/-! PROOF. The exits of SETFREQ that write nothing (60 R191, R192, R197; 44 R146, R164): out of S_ENTRY, of S_LOOKUP,
and after the reader's two reads. -/

namespace Sys2Proof.Machine

variable {s : State} {hz : Word} {r : Row}

/-- The first two steps of SETFREQ: acceptance and S_ENTRY. -/
theorem setfreq_run_entered (hst : s.st = .sIdle) (n : Nat) :
    execTimes (.setfreq hz) (n + 2) s = execTimes (.setfreq hz) n (ruleEntry (accept opSetfreq hz s)) := by
  rw [execTimes_succ (n + 1) ((exec_setfreq hz s).trans (commandStep_idle hst opSetfreq hz)),
    execTimes_rule n rfl (by simp) (ruleOf_sEntry rfl)]

/-- An unimplemented family is rejected before the table is consulted (60 R197). -/
theorem setfreq_run_unsupportedFamily (hst : s.st = .sIdle) (hf : s.family ≠ s.cfg.fam0) :
    execTimes (.setfreq hz) 3 s = .next (respond (raise .unsupportedFamily (accept opSetfreq hz s))) := by
  rw [setfreq_run_entered hst 1, ruleEntry_of_tableCommand_unsupported (s := accept opSetfreq hz s) (.inl rfl) hf,
    execTimes_respond rfl rfl]

/-- A frequency with no row is rejected before any register is read (60 R192). -/
theorem setfreq_run_unsupportedFrequency (hst : s.st = .sIdle) (hf : s.family = s.cfg.fam0)
    (hmiss : lookupRow s.cfg hz = none) :
    execTimes (.setfreq hz) 4 s = .next (respond (raise .unsupportedFrequency (accept opSetfreq hz s))) := by
  rw [setfreq_run_entered hst 2, ruleEntry_of_tableCommand (s := accept opSetfreq hz s) (.inl rfl) hf,
    execTimes_rule 1 rfl (by simp) ((ruleOf_sLookup rfl).trans
      (ruleLookup_of_none (s := { accept opSetfreq hz s with st := .sLookup }) hf hmiss)), execTimes_respond rfl rfl]
  rfl

/-- When the fields already give the target, the command is done after the reader (44 R146). -/
theorem setfreq_run_atTarget (hst : s.st = .sIdle) (hf : s.family = s.cfg.fam0) (wf : s.cfg.WF)
    (hrow : lookupRow s.cfg hz = some r) (hat : fieldsHz s = hz) :
    execTimes (.setfreq hz) 6 s = .next (respond (succeed (targetRead hz r s))) := by
  have hcur : (targetRead hz r s).curHz = (targetRead hz r s).arg := (targetRead_curHz wf hz r).trans hat
  rw [execTimes_add 1 (setfreq_run_read hst hf hrow), compareAndDirect_of_eq hcur, execTimes_respond rfl rfl]

/-- The reader's two steps (44 R144, R145): two reads, the two fields, and their frequency. -/
theorem readPodf_ruleRdDiv (wf : s.cfg.WF) :
    readPodf (ruleRdDiv s) = { s with
      bus := s.bus ++ [.rd s.cfg.aPll (busValue .pll s)] ++ [.rd s.cfg.aCdiv s.cdiv]
      rdDiv := divOf s.cfg s.pll, rdPodf := podfOf s.cfg s.cdiv, curHz := fieldsHz s, st := .sRdPodf } := by
  rw [ruleRdDiv_eq wf]; rfl

theorem targetRead_eq (wf : s.cfg.WF) :
    targetRead hz r s = { latchRow r (accept opSetfreq hz s) with
      bus := s.bus ++ [.rd s.cfg.aPll (busValue .pll s)] ++ [.rd s.cfg.aCdiv s.cdiv]
      rdDiv := divOf s.cfg s.pll, rdPodf := podfOf s.cfg s.cdiv, curHz := fieldsHz s, st := .sRdPodf } :=
  readPodf_ruleRdDiv (s := { latchRow r (accept opSetfreq hz s) with st := .sRdDiv }) wf

/-- The answer to a SETFREQ that is at its target: the row and the reader's latches, and the two reads in order. -/
theorem respond_succeed_targetRead (hst : s.st = .sIdle) (hcmd : s.cmd = 0#4) (wf : s.cfg.WF)
    (hat : fieldsHz s = hz) :
    respond (succeed (targetRead hz r s)) = { s with
      arg := hz, opDiv := r.div, opPodf := r.podf, opUv := r.uv
      bus := s.bus ++ [.rd s.cfg.aPll (busValue .pll s), .rd s.cfg.aCdiv s.cdiv]
      rdDiv := divOf s.cfg s.pll, rdPodf := podfOf s.cfg s.cdiv, curHz := hz
      rdata := 0#32, status := .ok
      rsp := s.rsp ++ [⟨.ok, 0#32⟩], rspOut := s.rspOut ++ [⟨.ok, 0#32⟩] } := by
  rw [targetRead_eq wf]
  simp [latchRow, accept, succeed, respond, hst, hcmd, hat]

/-- Settles O19: three runs, each with its answer written out. -/
theorem setfreqExitsWithoutWriting : Obligations.SetfreqExitsWithoutWriting := by
  intro s hz hst hcmd wf
  refine ⟨fun hf => ?family, fun hf hmiss => ?frequency, fun hf r hr hkey hat => ?atTarget⟩
  case family => rw [setfreq_run_unsupportedFamily hst hf, respond_raise_accept hst hcmd]
  case frequency =>
    rw [setfreq_run_unsupportedFrequency hst hf (lookupRow_eq_none hmiss), respond_raise_accept hst hcmd]
  case atTarget =>
    rw [setfreq_run_atTarget hst hf wf (hkey ▸ lookupRow_of_mem wf hr) hat,
      respond_succeed_targetRead hst hcmd wf hat]

end Sys2Proof.Machine
end

section
/-! PROOF. The unbounded wait for the PLL's lock (44 R154; 60 R195; 93 U1). -/

namespace Sys2Proof.Machine

variable {s : State} {i : Instr}

/-- Without a deadline, a poll that sees no lock is a read of PLL and nothing more. -/
theorem exec_waitLock_of_unbounded (hi : isCommand i = true) (hst : s.st = .sWaitLock) (hl : s.pllLock = false)
    (hd : s.cfg.lockDeadline = none) : exec i s = .next (afterRead .pll s) :=
  exec_atState hi hst nofun ((ruleOf_sWaitLock hst).trans (congrArg _
    ((ruleWaitLock_of_unlocked hl).trans (pollFailed_of_unbounded (s := afterRead .pll s) hd))))

/-- Such polls go on, because a poll leaves the next one the same premises. -/
theorem unboundedPoll_run (hi : isCommand i = true) (n : Nat) (hst : s.st = .sWaitLock) (hl : s.pllLock = false)
    (hd : s.cfg.lockDeadline = none) :
    execTimes i n s = .next { s with bus := s.bus ++ List.replicate n (.rd s.cfg.aPll (busValue .pll s)) } := by
  induction n generalizing s with
  | zero => rw [execTimes_zero, List.replicate_zero, List.append_nil]
  | succ n ih =>
    rw [execTimes_succ n (exec_waitLock_of_unbounded hi hst hl hd), ih (s := afterRead .pll s) hst hl hd,
      busValue_afterRead, List.replicate_succ, List.append_cons]
    rfl

/-- Settles O21: by induction on the number of polls. -/
theorem unlockedPllPollsForEver : Obligations.UnlockedPllPollsForEver :=
  fun _ _ n hst hl hd => unboundedPoll_run rfl n hst hl hd

end Sys2Proof.Machine
end

section
/-! PROOF. The reset event and the inputs the model refuses (70 R220, R223; 93 U3). -/

namespace Sys2Proof.Machine

variable {s : State} {rest : List Move}

/-- A scheduled move is taken with the schedule advanced. -/
theorem step_of_sched {m : Move} (h : s.sched = m :: rest) : step s = takeMove m { s with sched := rest } := by
  rw [step, takeTurn, h]

/-- Reset at rest is the reset event (R220). -/
theorem resetAsserted_of_atRest (hst : s.st = .sIdle) (hmd : s.md = none) :
    resetAsserted s = .next (resetEvent s) :=
  if_pos (by simp [atRest, hst, hmd])

/-- Reset with a command or a micro-operation in flight is refused (R223). -/
theorem resetAsserted_of_inFlight (h : CommandInFlight s ∨ s.md ≠ none) :
    resetAsserted s = .refused .resetInFlight := by
  refine if_neg ?_
  rcases h with ⟨_, hst⟩ | hmd
  · simp [atRest, hst]
  · simp [atRest, hmd]

/-- Settles O39: the step is the scheduled move's, and the reset event is an update of latches alone. -/
theorem resetEventAndRefusedInputs : Obligations.ResetEventAndRefusedInputs := by
  intro s rest
  refine ⟨fun hs hst hmd => ?atRest, fun hs hf => ?inFlight, fun r w hs => step_of_sched hs⟩
  case atRest =>
    exact ⟨resetEvent { s with sched := rest },
      (step_of_sched hs).trans (resetAsserted_of_atRest (s := { s with sched := rest }) hst hmd),
      rfl, rfl, rfl, rfl, rfl, rfl, rfl, rfl, rfl, rfl, rfl, rfl, rfl, rfl⟩
  case inFlight => exact (step_of_sched hs).trans (resetAsserted_of_inFlight (s := { s with sched := rest }) hf)

end Sys2Proof.Machine
end

section
/-! PROOF. The core clock through a frequency change (70 R227, R228, R232, R238, R239; 45 R175, R176): what a command's
step does to DIV_SELECT and BYPASS, and what the clock is meanwhile. -/

namespace Sys2Proof.Machine

variable {s t : State}

/-! ### The facts of a state and the step of a command -/

/-- What the invariant says, read at a given state of the sequencer. -/
theorem PathInv.atState {x : SeqState} (hp : PathInv s) (hst : s.st = x) : PathInv { s with st := x } := by
  subst hst; exact hp

/-- A step with a command in flight keeps the registers or is one of the six write halves. -/
theorem step_ruleWrite (hf : CommandInFlight s) (h : step s = .next t) :
    RuleWrite { s with sched := s.sched.tail } t :=
  (step_inFlight_cases hf h).elim ruleWrite_ruleOf fun hk => .kept hk

/-- What a command's step does to DIV_SELECT and BYPASS: it keeps both, sets BYPASS, writes the divider under
insulation, or clears BYPASS over the new divider. -/
inductive PllStep (s t : State) : Prop where
  | kept (div : divOf s.cfg t.pll = divOf s.cfg s.pll) (byp : bypOf s.cfg t.pll = bypOf s.cfg s.pll)
  | bypass (div : divOf s.cfg t.pll = divOf s.cfg s.pll) (byp : bypOf s.cfg t.pll = true)
  | divider (st : s.st = .sDivselWr) (before : Insulated s) (after : Insulated t)
  | unbypass (st : s.st = .sUnbypWr) (div : divOf s.cfg t.pll = divOf s.cfg s.pll) (newDiv : DividerSet s)
      (held : LockHeld s)

theorem PllStep.of_pll_eq (h : t.pll = s.pll) : PllStep s t := .kept (by rw [h]) (by rw [h])

theorem pllStep_of_ruleWrite (wf : s.cfg.WF) (hp : PathInv s) (h : RuleWrite s t) : PllStep s t := by
  cases h with
  | kept regs => obtain ⟨hpll, _, _⟩ := regs; exact .of_pll_eq hpll
  | source st e =>
    subst e
    obtain ⟨_, ht⟩ : Changing s ∧ TmpIsPll s := hp.atState st
    obtain ⟨hdiv, _, hbyp⟩ := fields_of_tmp wf ht
    exact .kept ((divOf_pllStored wf _).trans ((divOf_insertSrc wf _ _).trans hdiv))
      ((bypOf_pllStored wf _).trans ((bypOf_insertSrc wf _ _).trans hbyp))
  | bypass st e =>
    subst e
    obtain ⟨_, _, ht⟩ : Changing s ∧ OscSelected s ∧ TmpIsPll s := hp.atState st
    obtain ⟨hdiv, _, _⟩ := fields_of_tmp wf ht
    exact .bypass ((divOf_pllStored wf _).trans ((divOf_setByp wf _).trans hdiv))
      ((bypOf_pllStored wf _).trans (bypOf_setByp _))
  | divider st e =>
    subst e
    obtain ⟨hc, hins, ht⟩ : Changing s ∧ Insulated s ∧ TmpIsPll s := hp.atState st
    obtain ⟨_, hafter, _⟩ : Changing (ruleDivselWr s) ∧ Insulated (ruleDivselWr s) ∧ DividerSet (ruleDivselWr s) :=
      pathInv_ruleDivselWr wf hc hins ht
    exact .divider st hins hafter
  | unbypass st e =>
    subst e
    obtain ⟨_, _, hset, hheld, ht⟩ : Changing s ∧ Insulated s ∧ DividerSet s ∧ LockHeld s ∧ TmpIsPll s :=
      hp.atState st
    obtain ⟨hdiv, _, _⟩ := fields_of_tmp wf ht
    exact .unbypass st ((divOf_pllStored wf _).trans ((divOf_clearByp wf _).trans hdiv)) hset hheld
  | podf _ e | targets _ e => subst e; exact .of_pll_eq rfl

/-- With a command in flight every step of a coherent state is a `PllStep`, whichever agent moves. -/
theorem pllStep_of_inFlight (hi : Inv s) (hf : CommandInFlight s) (h : step s = .next t) :
    PllStep { s with sched := s.sched.tail } t :=
  pllStep_of_ruleWrite hi.cfgWF (inv_setPorts hi s.sched.tail s.port s.rspOut s.railSettled).path
    (step_ruleWrite hf h)

/-- Settles O48: of the four kinds of `PllStep` only the divider write changes DIV_SELECT. -/
theorem dividerChangesOnlyWhileBypassed : Obligations.DividerChangesOnlyWhileBypassed := by
  intro s t hi hf h hdiv
  cases pllStep_of_inFlight hi hf h with
  | divider st before after => exact ⟨st, before, after⟩
  | kept div | bypass div | unbypass _ div => exact absurd div hdiv

/-! ### The lock -/

/-- A PLL that keeps its lock stays locked through a step that keeps DIV_SELECT (45 R172, R174). -/
theorem pllLock_kept (wf : s.cfg.WF) (hm : s.cfg.pllMayDropLock = false) (h : step s = .next t)
    (hl : s.pllLock = true) (hd : divOf s.cfg t.pll = divOf s.cfg s.pll) : t.pllLock = true := by
  rcases step_pllLock wf h with ⟨hlocked, _⟩ | ⟨_, hmay, _⟩ | hiff
  · exact hlocked
  · exact absurd (hm.symm.trans hmay) nofun
  · exact hiff.2 ⟨hl, hd⟩

/-- After a step the PLL is not bypassed only if it was not before, or in the un-bypass write with its lock held; either
way the step keeps DIV_SELECT. -/
theorem PllStep.of_unbypassed (h : PllStep s t) (hcfg : t.cfg = s.cfg) (hb : bypOf s.cfg t.pll = false) :
    divOf s.cfg t.pll = divOf s.cfg s.pll ∧
      (bypOf s.cfg s.pll = false ∨ (s.st = .sUnbypWr ∧ DividerSet s ∧ LockHeld s)) := by
  cases h with
  | kept div byp => exact ⟨div, .inl (byp.symm.trans hb)⟩
  | unbypass st div newDiv held => exact ⟨div, .inr ⟨st, newDiv, held⟩⟩
  | bypass _ byp => exact absurd byp (by simp [hb])
  | divider _ _ after =>
    obtain ⟨_, byp⟩ := after
    exact absurd byp (by simp [hcfg, hb])

/-- Settles O49: by `PllStep.of_unbypassed`, because BYPASS was set before. -/
theorem unbypassOnlyWhenLocked : Obligations.UnbypassOnlyWhenLocked := by
  intro s t hi hf h hbefore hafter
  obtain ⟨hcfg, _⟩ := tableAndStrapAreImmutable s t h
  obtain ⟨hdiv, hb | ⟨st, newDiv, held⟩⟩ := (pllStep_of_inFlight hi hf h).of_unbypassed hcfg hafter
  · exact absurd hbefore (by simp [hb])
  · exact ⟨st, newDiv, fun hm => ⟨held hm, pllLock_kept hi.cfgWF hm h (held hm) hdiv⟩⟩

/-! ### The stability of the core clock -/

/-- The core clock is stable exactly if the PLL is bypassed or locked (45 R175, R176). -/
theorem fCore_ne_unstable_iff : fCore s ≠ .unstable ↔ (bypOf s.cfg s.pll = false → s.pllLock = true) := by
  rcases hb : bypOf s.cfg s.pll
  case true =>
    by_cases hsrc : srcOf s.cfg s.pll = s.cfg.srcOsc
    · simp [fCore_of_hz (fPllout_of_oscillator hb hsrc)]
    · simp [fCore_of_unknown (fPllout_of_otherSource hb hsrc)]
  case false =>
    rcases hl : s.pllLock
    · simp [fCore_of_unstable (fPllout_of_unlocked hb hl)]
    · simp [fCore_of_locked hb hl]

/-- A resting sequencer to which no micro-operation is presented leaves PLL alone. -/
theorem pll_of_atRest (hn : NoMops s) (hst : s.st = .sIdle) (h : step s = .next t) : t.pll = s.pll := by
  obtain ⟨hmd, hport⟩ := hn
  cases step_cases h with
  | sequencer _ turn =>
    cases turn with
    | wait _ _ _ e | take _ _ _ _ _ e => subst e; rfl
    | start _ _ d rest hp =>
      have hmem : .mop d ∈ s.port := hp ▸ List.mem_cons_self
      exact absurd (hport _ hmem) nofun
    | goOn d md => exact absurd (hmd.symm.trans md) nofun
    | rule inFlight => exact absurd hst inFlight.2
  | present _ _ _ e | consume _ _ e | lock _ _ e | drop _ _ e | settle _ _ e | reset _ _ _ _ e => subst e; rfl

/-- While no micro-operation runs or waits, every step is a `PllStep`. -/
theorem pllStep_of_noMops (hi : Inv s) (hn : NoMops s) (h : step s = .next t) :
    PllStep { s with sched := s.sched.tail } t := by
  by_cases hst : s.st = .sIdle
  · have hpll : t.pll = s.pll := pll_of_atRest hn hst h
    exact .of_pll_eq hpll
  · exact pllStep_of_inFlight hi ⟨hn.1, hst⟩ h

/-- Settles O50: a step after which the PLL is not bypassed keeps DIV_SELECT and started with the PLL locked. -/
theorem coreClockStaysStable : Obligations.CoreClockStaysStable := by
  intro s t hi hm hmd hport h hstable
  obtain ⟨hcfg, _⟩ := tableAndStrapAreImmutable s t h
  rw [fCore_ne_unstable_iff] at hstable ⊢
  rw [hcfg]
  intro hafter
  obtain ⟨hdiv, hb | ⟨_, _, held⟩⟩ := (pllStep_of_noMops hi ⟨hmd, hport⟩ h).of_unbypassed hcfg hafter
  · exact pllLock_kept hi.cfgWF hm h (hstable hb) hdiv
  · exact pllLock_kept hi.cfgWF hm h (held hm) hdiv

/-! ### The intermediate clocks -/

/-- From the assertion of bypass until it is cleared the core is insulated. -/
theorem insulated_of_pathInv (hp : PathInv s)
    (hst : s.st = .sDivselRd ∨ s.st = .sDivselWr ∨ s.st = .sWaitLock ∨ s.st = .sUnbypRd ∨ s.st = .sUnbypWr) :
    Insulated s := by
  rcases hst with hst | hst | hst | hst | hst
  · obtain ⟨_, hins⟩ : Changing s ∧ Insulated s := hp.atState hst
    exact hins
  all_goals obtain ⟨_, hins, _⟩ := hp.atState hst; exact hins

/-- Between un-bypass and the post-divider commit the new divider is programmed and the PLL drives the core. -/
theorem unbypassed_of_pathInv (hp : PathInv s) (hst : s.st = .sPodfRd ∨ s.st = .sPodfWr) :
    bypOf s.cfg s.pll = false ∧ DividerSet s ∧ LockHeld s := by
  rcases hst with hst | hst
  · obtain ⟨_, _, hbyp, hset, hheld⟩ := hp.atState hst
    exact ⟨hbyp, hset, hheld⟩
  · obtain ⟨_, _, hbyp, hset, hheld, _⟩ := hp.atState hst
    exact ⟨hbyp, hset, hheld⟩

/-- Settles O59: the clock outputs under the invariant of each state. -/
theorem intermediateClockFrequencies : Obligations.IntermediateClockFrequencies := by
  intro s hi
  refine ⟨fun hst => ?insulated, fun hst hm => ?unbypassed, fun hst hm => ?committed⟩
  case insulated =>
    obtain ⟨hsrc, hbyp⟩ := insulated_of_pathInv hi.path hst
    exact fCore_of_hz (fPllout_of_oscillator hbyp hsrc)
  case unbypassed =>
    obtain ⟨hbyp, hset, hheld⟩ := unbypassed_of_pathInv hi.path hst
    have hdiv : divOf s.cfg s.pll = s.opDiv := hset
    rw [fCore_of_locked hbyp (hheld hm), fieldsHz, hdiv]
  case committed =>
    obtain ⟨_, hbyp, _, hheld, hz⟩ : Changing s ∧ Arrived s := hi.path.atState hst
    rw [fCore_of_locked hbyp (hheld hm), hz]

end Sys2Proof.Machine
end

section
/-! PROOF. Voltage before frequency when scaling up, after it when scaling down (70 R225, R226): the clock's registers
are written only while a frequency change is under way, the rails' only in a call of the controller. -/

namespace Sys2Proof.Machine

variable {s t : State}

/-- A command's write of PLL or CDIV is made while a frequency change is under way, and leaves VTARG alone. -/
theorem changing_of_clockWrite (hp : PathInv s) (h : RuleWrite s t) (hne : t.pll ≠ s.pll ∨ t.cdiv ≠ s.cdiv) :
    Changing s ∧ t.vtarg = s.vtarg := by
  cases h with
  | kept regs =>
    obtain ⟨hpll, hcdiv, _⟩ := regs
    exact hne.elim (absurd hpll) (absurd hcdiv)
  | targets _ e => subst e; exact hne.elim (absurd rfl) (absurd rfl)
  | divider st e =>
    obtain ⟨hc, _⟩ := hp.atState st
    exact ⟨hc, by rw [e, ruleDivselWr_eq]; rfl⟩
  | source st e | bypass st e | unbypass st e | podf st e =>
    obtain ⟨hc, _⟩ := hp.atState st
    subst e; exact ⟨hc, rfl⟩

/-- Settles O51: in an increase under way the core-rail target is the new operating point's, that of the table's row. -/
theorem increaseRaisesVoltageFirst : Obligations.IncreaseRaisesVoltageFirst := by
  intro s t hi hf _ hinc h hne
  have hpath := (inv_setPorts hi s.sched.tail s.port s.rspOut s.railSettled).path
  obtain ⟨hc, hkept⟩ := changing_of_clockWrite hpath (step_ruleWrite hf h) hne
  obtain ⟨_, _, hres, htarget⟩ := hc
  obtain ⟨r, hr, hkey, _, _, huv⟩ := hres.row
  exact ⟨htarget hinc, hkept, r, hr, hkey, huv.symm⟩

/-- A command's step that changes VTARG is that of S_V_RMW_WR. -/
theorem ruleVRmwWr_of_vtarg_ne (hf : CommandInFlight s) (h : step s = .next t) (hne : t.vtarg ≠ s.vtarg) :
    s.st = .sVRmwWr ∧ t = ruleVRmwWr { s with sched := s.sched.tail } := by
  rcases step_inFlight_cases hf h with hr | ⟨_, _, hv⟩
  · have hst : s.st = .sVRmwWr := by
      by_contra hst
      exact hne (vtarg_of_ruleOf (s := { s with sched := s.sched.tail }) hst hr)
    rw [ruleOf_sVRmwWr (s := { s with sched := s.sched.tail }) hst] at hr
    cases hr
    exact ⟨hst, rfl⟩
  · exact absurd hv hne

/-- A call by a decreasing SETFREQ is the post-lower: the clock has arrived (44 R160). -/
theorem Calling.arrived_of_decrease (hc : Calling s) (hcmd : s.cmd = opSetfreq) (hinc : s.inc = false) :
    Arrived s ∧ s.vUv = s.opUv := by
  obtain ⟨_, _, ⟨_, hsetop, _⟩ | ⟨_, _, hinc', _⟩ | ⟨_, _, _, huv, ha⟩⟩ := hc
  · exact absurd (hsetop.symm.trans hcmd) (by decide)
  · exact absurd (hinc.symm.trans hinc') nofun
  · exact ⟨ha, huv⟩

/-- Settles O52: VTARG changes only in S_V_RMW_WR, which a decreasing SETFREQ reaches after its clock has arrived. -/
theorem decreaseLowersVoltageLast : Obligations.DecreaseLowersVoltageLast := by
  intro s t hi hf hcmd hinc h hne
  obtain ⟨hst, ht⟩ := ruleVRmwWr_of_vtarg_ne hf h hne
  obtain ⟨hc, hquant, _⟩ := hi.path.atState hst
  obtain ⟨ha, huv⟩ := hc.arrived_of_decrease hcmd hinc
  have hcode : vcoreOf s.cfg t.vtarg = s.vCore := by rw [ht]; exact vcoreOf_withTargets hi.cfgWF _ _ _
  subst ht
  exact ⟨ha, rfl, rfl, hcode.trans (hquant.trans (congrArg quant huv))⟩

end Sys2Proof.Machine
end
